-- ==== Sys2Proof/Word.lean ====
section
/-! DEFINITION. The widths of rules R8, R9, R12, R16 and R19 (00_scope.md). -/

namespace Sys2Proof

/-- A command word, `CMD_W = 32` bits (R16). -/
abbrev Word32 := BitVec 32

/-- A target address, `ADDR_W = 20` bits (R8). -/
abbrev Addr := BitVec 20

/-- A sample, `DATA_W = 8` bits (R9). -/
abbrev Byte := BitVec 8

/-- A settle duration in microseconds, `SETTLE_W = 16` bits (R12). -/
abbrev Micros := BitVec 16

/-- A line level (R19): `true` is the electrically high level 1, `false` the low level 0. -/
abbrev Level := Bool

end Sys2Proof
end

