-- ==== Sys2Proof/Syntax.lean ====
section
/-! DEFINITION. BCE command set v1 (R4, R69): one constructor per row of spec/opcode_table.json. -/

namespace Sys2Proof

/-- The seven commands with their operands (R67, R68). -/
inductive Instr where
  /-- `ACQUIRE`, R75. -/
  | acquire
  /-- `RELEASE`, R78. -/
  | release
  /-- `DRIVE a`, R82. -/
  | drive (a : Addr)
  /-- `FLOAT`, R83. -/
  | float
  /-- `SAMPLE`, R86. -/
  | sample
  /-- `READ a`, R88. -/
  | read (a : Addr)
  /-- `SETSETTLE n`, R102. -/
  | setsettle (n : Micros)
deriving DecidableEq, Repr

end Sys2Proof
end

