-- ==== Sys2Proof/WellFormed.lean ====
section
/-! DEFINITION. The commands that a legal word can hold. The one condition that the operand types do not already
carry is R70 item 5: `SETSETTLE` with `VAL = 0` is illegal. -/

namespace Sys2Proof

/-- `i` is a command some legal word encodes (R67, R70). -/
def Instr.wellFormed : Instr → Bool
  | .acquire => true
  | .release => true
  | .drive _ => true
  | .float => true
  | .sample => true
  | .read _ => true
  | .setsettle n => n != 0

end Sys2Proof
end

