-- ==== Sys2Proof/Decode.lean ====
section
/-! DEFINITION. Decoding of command words (R66 to R70, 30_encoding.md), total on every word, and the encoder. -/

namespace Sys2Proof

/-- Why a word is illegal: the five items of R70, by name. -/
inductive IllegalCause where
  /-- Item 1: `OP` is `0x0` or in `0x8` to `0xF`. -/
  | opcode
  /-- Item 2: shape N with a bit of 27:0 set. -/
  | z28
  /-- Item 3: shape A with a bit of 27:20 set. -/
  | z8
  /-- Item 4: shape V with a bit of 27:16 set. -/
  | z12
  /-- Item 5: `SETSETTLE` with `VAL = 0`. -/
  | zeroVal
deriving DecidableEq, Repr

/-- `OP = cmd_word[31:28]` (R67). -/
def opField (w : Word32) : BitVec 4 := w.extractLsb' 28 4

/-- `Z28 = cmd_word[27:0]` (R67). -/
def z28Field (w : Word32) : BitVec 28 := w.extractLsb' 0 28

/-- `Z8 = cmd_word[27:20]` (R67). -/
def z8Field (w : Word32) : BitVec 8 := w.extractLsb' 20 8

/-- `Z12 = cmd_word[27:16]` (R67). -/
def z12Field (w : Word32) : BitVec 12 := w.extractLsb' 16 12

/-- `ADDR = cmd_word[19:0]` (R68). -/
def addrField (w : Word32) : Addr := w.extractLsb' 0 20

/-- `VAL = cmd_word[15:0]` (R68). -/
def valField (w : Word32) : Micros := w.extractLsb' 0 16

/-- A shape N word: no operand (R67). -/
def decodeN (w : Word32) (i : Instr) : Except IllegalCause Instr :=
  if z28Field w = 0 then .ok i else .error .z28

/-- A shape A word: an address operand (R67). -/
def decodeA (w : Word32) (mk : Addr → Instr) : Except IllegalCause Instr :=
  if z8Field w = 0 then .ok (mk (addrField w)) else .error .z8

/-- A shape V word: a settle duration other than 0 (R67, R70). -/
def decodeV (w : Word32) (mk : Micros → Instr) : Except IllegalCause Instr :=
  if z12Field w = 0 then
    if valField w = 0 then .error .zeroVal else .ok (mk (valField w))
  else .error .z12

/-- The command a word holds, or the item of R70 that makes it illegal (R69, R70). -/
def decode (w : Word32) : Except IllegalCause Instr :=
  match (opField w).toNat with
  | 1 => decodeN w .acquire
  | 2 => decodeN w .release
  | 3 => decodeA w .drive
  | 4 => decodeN w .float
  | 5 => decodeN w .sample
  | 6 => decodeA w .read
  | 7 => decodeV w .setsettle
  | _ => .error .opcode

/-- The word of a command: R69's opcode map, with the operand in the low bits as R82, R88 and R102 write it. -/
def encode : Instr → Word32
  | .acquire => 0x10000000#32
  | .release => 0x20000000#32
  | .drive a => 0x30000000#32 ||| a.setWidth 32
  | .float => 0x40000000#32
  | .sample => 0x50000000#32
  | .read a => 0x60000000#32 ||| a.setWidth 32
  | .setsettle n => 0x70000000#32 ||| n.setWidth 32

/-- The `match` column of R69: the word with every operand bit 0. -/
def matchWord : Instr → Word32
  | .acquire => 0x10000000#32
  | .release => 0x20000000#32
  | .drive _ => 0x30000000#32
  | .float => 0x40000000#32
  | .sample => 0x50000000#32
  | .read _ => 0x60000000#32
  | .setsettle _ => 0x70000000#32

/-- The `mask` column of R69: the bits that are no operand. -/
def maskWord : Instr → Word32
  | .acquire => 0xFFFFFFFF#32
  | .release => 0xFFFFFFFF#32
  | .drive _ => 0xFFF00000#32
  | .float => 0xFFFFFFFF#32
  | .sample => 0xFFFFFFFF#32
  | .read _ => 0xFFF00000#32
  | .setsettle _ => 0xFFFF0000#32

/-- The word on `cmd_word` of an instruction whose low `nbits` bits are `w` and whose bits above are 0, numbered as
spec/opcode_table.json numbers them (bit 0 the least significant, one 32-bit word). -/
def tableWord (nbits w : Nat) : Word32 := BitVec.ofNat 32 (w % 2 ^ nbits)

/-- What the decoder reads from the instruction `tableWord nbits w`. -/
def decodeTableWord (nbits w : Nat) : Option Instr :=
  match decode (tableWord nbits w) with
  | .ok i => some i
  | .error _ => none

end Sys2Proof
end

