-- ==== Sys2Proof/Config.lean ====
section
/-! DEFINITION. What the board fixes and what nothing fixes: the polarity table of R28 (10_state.md), whose entries
"the model takes ... as a constant of this table", and the free values of 93_implementation_defined.md. -/

namespace Sys2Proof.Config

/-- Idle level of `ALE` (R28), which is active high. Log entry 15. -/
abbrev aleIdle : Level := false

/-- Idle level of `RD_n` (R28), which is active low. -/
abbrev rdIdle : Level := true

/-- Idle level of `DEN_n` (R28), which is active low. -/
abbrev denIdle : Level := true

/-- Idle level of `WR_n` (R28), which is active low. PRESUMED by the spec itself (G3); log entry 15. -/
abbrev wrIdle : Level := true

/-- The level of `IO_M` that selects memory (R28). PRESUMED by the spec itself (G4); log entry 15. -/
abbrev ioMemory : Level := false

/-- The level of `DT_R` that selects receive (R28). PRESUMED by the spec itself (G5); log entry 15. -/
abbrev dtReceive : Level := false

/-- The active level of `HOLD` (R28). PRESUMED by the spec itself (G6); log entry 15. -/
abbrev holdActive : Level := true

/-- The active level of `HLDA` (R28). PRESUMED by the spec itself (G6); log entry 15. -/
abbrev hldaActive : Level := true

/-- The levels a read of `AD[7:0]` finds where R31, R50 or R96 says "any value": a FREE VALUE with no body, applied
to the number of the edge, so that every edge draws afresh. Log entry 8. -/
opaque freeByte : Nat → Byte

/-- The levels the address latch finds on `AD` lines that the block floats (R45 with R31): a FREE VALUE applied to the
number of the edge. No reachable state uses it. Log entry 10. -/
opaque freeAddr : Nat → Addr

end Sys2Proof.Config
end

