-- ==== Sys2Proof/Machine/State.lean ====
section
/-! DEFINITION. All the state the spec gives the block (10_state.md sections 2 to 6), the environment a model of it on
a board must carry (10_state.md section 7), and the state right after reset (R48). -/

namespace Sys2Proof.Machine

/-- The document's "Line Direction State" (R26). -/
inductive LineDir where
  | floating
  | driven
deriving DecidableEq, Repr

/-- A control line (R25, R26): its direction and the level the block puts on it while `driven`. -/
structure Line where
  dir : LineDir
  out : Level
deriving DecidableEq, Repr

/-- The 20 lines `AD[19:0]` (R25, R26). Bit `i` of `driven` is 1 when `dir(AD[i]) = Driven`; bit `i` of `out` is
`out(AD[i])`. -/
structure AdBus where
  driven : BitVec 20
  out : BitVec 20
deriving DecidableEq, Repr

/-- The 26 switchable lines (R25, R26). -/
structure Lines where
  ad : AdBus
  ale : Line
  denN : Line
  dtR : Line
  ioM : Line
  rdN : Line
  wrN : Line
deriving DecidableEq, Repr

/-- The document's "Bus Ownership State" (R32). The encoding `11` is never written, and the type leaves it out (U15). -/
inductive Ownership where
  | released
  | requested
  | held
deriving DecidableEq, Repr

/-- The sequencer's phases (R43). -/
inductive Phase where
  | idle
  | acqWait
  | relHold
  | relWait
  | rcAleHi
  | rcAleLo
  | rcFloat
  | rcRdOn
  | rcDenOn
  | rcSettle
  | rcDenOff
  | rcRdOff
deriving DecidableEq, Repr

/-- Response status (R113). The code `11` is never produced, and the type leaves it out (U14). -/
inductive RspStatus where
  | ok
  | illegal
  | badState
deriving DecidableEq, Repr

/-- The block's registers: every row of the reset table R48 but `LATCH`. -/
structure Block where
  /-- `dir` and `out` of the switchable lines (R26). -/
  lines : Lines
  /-- `hold_o`, the level of the always driven line `HOLD` (R27). -/
  holdO : Level
  /-- First flip-flop of the `HLDA` synchroniser (R30). -/
  s1 : Level
  /-- Second flip-flop, `Sync(HLDA)` (R30). -/
  s2 : Level
  /-- `OWN` (R32). -/
  own : Ownership
  /-- `SETTLE`, microseconds (R36). -/
  settle : Micros
  /-- `DATA`, the last sampled byte (R37). -/
  data : Byte
  /-- `STATUS.ERR` (R39). -/
  err : Bool
  /-- `PH` (R43). -/
  ph : Phase
  /-- `CNT`, the edges a phase still waits (R43, R89). -/
  cnt : Nat
  /-- `OPND`, the address of the `READ` in progress (R43). -/
  opnd : Addr
  /-- `rsp_valid` (R42). -/
  rspValid : Bool
  /-- `rsp_status` (R42, R113). -/
  rspStatus : RspStatus
  /-- `rsp_data` (R42). -/
  rspData : Byte
deriving DecidableEq, Repr

/-- The OPEN parameters (R13, R14), arguments of the model that no step writes. Log entry 2. -/
structure Params where
  /-- `PHASE_CYCLES`, at least 1 (R14). -/
  phaseCycles : Nat
  /-- `TICKS_PER_US`, at least 1 (R13). -/
  ticksPerUs : Nat
deriving DecidableEq, Repr

/-- The input pins the host drives (R40). -/
structure HostPins where
  rst : Level
  cmdValid : Bool
  cmdWord : Word32
deriving DecidableEq, Repr

/-- The host (R104). `pins` are the levels the coming edge samples. `forced` gives the levels of the edges after it,
one entry an edge, whatever they are; once it is used up the host keeps duty 1 of R105 and presents the words of
`queue` in turn, each until it is accepted. Log entry 3. -/
structure HostPort where
  pins : HostPins
  forced : List HostPins
  queue : List Word32
deriving DecidableEq, Repr

/-- A memory of the target (R49, R51): the address and byte of every address that answers each read cycle with that
byte, addresses strictly rising. An address not listed answers any value (R50). Log entries 6 and 28. -/
abbrev Memory := List Host.Cell

/-- A memory device of the target: it answers at the addresses from `first` to `last`, `accessEdges` edges after the read
window opens at one of them (R47, R96). Log entry 7. -/
structure Device where
  first : Nat
  last : Nat
  accessEdges : Nat
deriving DecidableEq, Repr

/-- The target: its processor's answer to `HOLD` (R46) and its memory devices (R47). `hlda` is the level of the pin
`HLDA` that the coming edge samples. `plan` gives the levels of the edges after it, one entry an edge, whatever they
are; once it is used up the processor answers each change of `HOLD` after `delay` further edges, or never. Log entries
4, 6 and 7. -/
structure Target where
  hlda : Level
  plan : List Level
  delay : Option Nat
  /-- The edges for which an answer has been owed. -/
  owed : Nat
  mem : Memory
  /-- The access time, in edges from the opening of the read window (R96), at the addresses of no device listed. -/
  accessEdges : Nat
  /-- The devices with an access time of their own (R96); at an address of several the first one counts. -/
  devices : List Device
deriving DecidableEq, Repr

/-- What the block does to its lines, as the line recorder of R99 writes it down. -/
inductive LineEvent where
  /-- `AD[19:0]` set `Driven` with the levels `a`. -/
  | adDriven (a : Addr)
  /-- `AD[19:0]` set `Floating`. -/
  | adFloated
  /-- `AD[7:0]` set `Floating`. -/
  | lowFloated
  /-- `AD[7:0]` read. -/
  | adRead
  /-- `ALE` to a level. -/
  | ale (l : Level)
  /-- `RD_n` to a level. -/
  | rdN (l : Level)
  /-- `DEN_n` to a level. -/
  | denN (l : Level)
  /-- The six control lines set `Driven` at their idle levels. -/
  | controlDriven
  /-- The six control lines set `Floating`. -/
  | controlFloated
  /-- `HOLD` to a level. -/
  | hold (l : Level)
deriving DecidableEq, Repr

/-- The rest of the board, and the model's observer. -/
structure Board where
  /-- `LATCH`, the external address latch (R45). -/
  latch : Addr
  /-- The edges for which the read window of R47 has been open when the coming edge samples. Log entry 7. -/
  openFor : Nat
  /-- The recorder's events with their edge numbers, newest first (R99). Log entry 12. -/
  recorder : List (Nat × LineEvent)
  /-- The number of the coming edge, and the counter the free values are applied to. Log entry 8. -/
  edge : Nat
deriving DecidableEq, Repr

/-- The machine: the block, its parameters, and the environment of 10_state.md section 7. -/
structure State where
  blk : Block
  params : Params
  host : HostPort
  target : Target
  board : Board
deriving DecidableEq, Repr

/-- A step of this machine never faults: R112 ("it never fails") and R117 ("There is no trap mechanism") leave no
reason for one, so the type is empty. Log entry 13. -/
inductive Fault where
deriving DecidableEq, Repr

/-- Why a step has no meaning. -/
inductive Refusal where
  /-- Raised only by an arm of `exec` whose instruction has no meaning yet; no arm raises it now. Safe. -/
  | notModelled (mnemonic : String)
deriving DecidableEq, Repr

/-- The lines after reset (R48): all 26 floating, `AD` levels 0, control levels idle. -/
def Lines.reset : Lines where
  ad := ⟨0, 0⟩
  ale := ⟨.floating, Config.aleIdle⟩
  denN := ⟨.floating, Config.denIdle⟩
  dtR := ⟨.floating, Config.dtReceive⟩
  ioM := ⟨.floating, Config.ioMemory⟩
  rdN := ⟨.floating, Config.rdIdle⟩
  wrN := ⟨.floating, Config.wrIdle⟩

/-- The block after reset: the table of R48. -/
def Block.reset : Block where
  lines := Lines.reset
  holdO := !Config.holdActive
  s1 := false
  s2 := false
  own := .released
  settle := 1
  data := 0
  err := false
  ph := .idle
  cnt := 0
  opnd := 0
  rspValid := false
  rspStatus := .ok
  rspData := 0

/-- The block just after reset with parameters, host, target and board as given. -/
def State.resetWith (p : Params) (h : HostPort) (t : Target) (b : Board) : State where
  blk := Block.reset
  params := p
  host := h
  target := t
  board := b

/-- A host that presents nothing. DESIGN CHOICE, log entry 3. -/
def HostPort.quiet : HostPort := ⟨⟨false, false, 0⟩, [], []⟩

/-- A target with no device known to answer, whose processor answers `HOLD` at once (T0 of 95_test_vectors.md).
DESIGN CHOICE, log entries 4, 6 and 7. -/
def Target.reset : Target := ⟨false, [], some 0, 0, [], 0, []⟩

/-- The board when the model starts. `LATCH` is unspecified (R45): DESIGN CHOICE 0, log entry 9. -/
def Board.reset : Board := ⟨0, 0, [], 0⟩

/-- The machine right after reset (R128, R48). `PHASE_CYCLES` is the spec's default 1; `TICKS_PER_US` is OPEN:
DESIGN CHOICE 1, log entry 2. -/
def State.reset : State := State.resetWith ⟨1, 1⟩ HostPort.quiet Target.reset Board.reset

end Sys2Proof.Machine
end

