-- ==== Sys2Proof/Machine/Ops.lean ====
section
/-! DEFINITION. The named operations over memory, lines and registers, the response (R42), the rejection (R114), which
is this hardware's only exception, and the reset edge (R128). -/

namespace Sys2Proof.Machine

/-! ## The target's memory (R49 to R51) -/

/-- The byte a responding device drives for every read at address `a`, or `none` where the answer is any value (R50). -/
def Memory.read (m : Memory) (a : Nat) : Option Byte :=
  match m with
  | [] => none
  | (k, b) :: rest => if k = a then some b else Memory.read rest a

/-- The memory with address `a` answering `b`; `none` makes its answer any value again and removes the entry. The block
never writes (R49): this describes a target, before the model starts. -/
def Memory.place (m : Memory) (a : Nat) (b : Option Byte) : Memory :=
  match m with
  | [] => match b with
    | some v => [(a, v)]
    | none => []
  | (k, c) :: rest =>
    if a < k then
      match b with
      | some v => (a, v) :: (k, c) :: rest
      | none => (k, c) :: rest
    else if a = k then
      match b with
      | some v => (a, v) :: rest
      | none => rest
    else (k, c) :: Memory.place rest a b

/-- Every listed address is at least `lo` and below 2^20, addresses strictly rising. -/
def Memory.wfFrom (lo : Nat) : Memory → Bool
  | [] => true
  | (k, _) :: rest => decide (lo ≤ k) && decide (k < 2 ^ 20) && Memory.wfFrom (k + 1) rest

/-- The canonical form: strictly rising addresses of the 20-bit space (R49). -/
def Memory.wf (m : Memory) : Bool := Memory.wfFrom 0 m

/-- The access time at address `a` among `devices`, `others` where none of them answers there (R96). -/
def accessTimeIn (others : Nat) (devices : List Device) (a : Nat) : Nat :=
  match devices with
  | [] => others
  | d :: rest => if d.first ≤ a ∧ a ≤ d.last then d.accessEdges else accessTimeIn others rest a

/-- The access time of the device at address `a` (R96). -/
def Target.accessTime (t : Target) (a : Nat) : Nat := accessTimeIn t.accessEdges t.devices a

/-! ## Registers (R20: `R <- v`) -/

/-- `OWN <- o`. -/
def State.setOwn (s : State) (o : Ownership) : State := { s with blk := { s.blk with own := o } }

/-- `SETTLE <- n`. -/
def State.setSettle (s : State) (n : Micros) : State := { s with blk := { s.blk with settle := n } }

/-- `DATA <- b`. -/
def State.setData (s : State) (b : Byte) : State := { s with blk := { s.blk with data := b } }

/-- `OPND <- a`. -/
def State.setOpnd (s : State) (a : Addr) : State := { s with blk := { s.blk with opnd := a } }

/-- `PH <- p`, for the phases that count nothing. -/
def State.setPhase (s : State) (p : Phase) : State := { s with blk := { s.blk with ph := p } }

/-- Enters a counting phase: `PH <- p; CNT <- edges - 1` (R89). -/
def State.enter (s : State) (p : Phase) (edges : Nat) : State :=
  { s with blk := { s.blk with ph := p, cnt := edges - 1 } }

/-- `STATUS.ERR <- 1` (R39). -/
def State.setErr (s : State) : State := { s with blk := { s.blk with err := true } }

/-- `respond(st, d)` (R20, R42): the response of the command that completes at this edge. -/
def State.respond (s : State) (st : RspStatus) (d : Byte) : State :=
  { s with blk := { s.blk with rspValid := true, rspStatus := st, rspData := d } }

/-- `rsp_valid <- 0`, at every edge that completes no command (R42). -/
def State.quiet (s : State) : State := { s with blk := { s.blk with rspValid := false } }

/-- `raise Reject(code)` (R20, R114): the whole effect of a word that cannot be performed. The block has no other
exception: nothing is saved, no mode changes, nothing is entered (R117). -/
def State.reject (s : State) (code : RspStatus) : State := (s.setErr).respond code 0

/-! ## Lines (R26) -/

/-- The recorder writes an event down, with the number of the edge (R99). -/
def State.note (s : State) (e : LineEvent) : State :=
  { s with board := { s.board with recorder := (s.board.edge, e) :: s.board.recorder } }

/-- The lines take new directions and levels. -/
def State.setLines (s : State) (l : Lines) : State := { s with blk := { s.blk with lines := l } }

/-- `HOLD` takes level `l` (R27). -/
def State.setHold (s : State) (l : Level) : State :=
  ({ s with blk := { s.blk with holdO := l } }).note (.hold l)

/-- The address driver's `drive(a)` (R82): `out(AD[i]) <- a[i]; dir(AD[i]) <- Driven` for all 20 lines. -/
def Lines.driveAddress (l : Lines) (a : Addr) : Lines := { l with ad := ⟨0xFFFFF, a⟩ }

/-- The address driver's `release()` (R83): `dir(AD[i]) <- Floating` for all 20 lines; the levels are kept. -/
def Lines.floatAddress (l : Lines) : Lines := { l with ad := { l.ad with driven := 0 } }

/-- `dir(AD[i]) <- Floating` for `i` in 0..7 (R88, T4). -/
def Lines.floatLow (l : Lines) : Lines := { l with ad := { l.ad with driven := l.ad.driven &&& 0xFFF00 } }

/-- The six control lines `Driven` at their idle levels (R35, R75). -/
def Lines.driveControl (l : Lines) : Lines :=
  { l with
    ale := ⟨.driven, Config.aleIdle⟩
    denN := ⟨.driven, Config.denIdle⟩
    dtR := ⟨.driven, Config.dtReceive⟩
    ioM := ⟨.driven, Config.ioMemory⟩
    rdN := ⟨.driven, Config.rdIdle⟩
    wrN := ⟨.driven, Config.wrIdle⟩ }

/-- The six control lines `Floating`; the levels are kept (R35, R78). -/
def Lines.floatControl (l : Lines) : Lines :=
  { l with
    ale := { l.ale with dir := .floating }
    denN := { l.denN with dir := .floating }
    dtR := { l.dtR with dir := .floating }
    ioM := { l.ioM with dir := .floating }
    rdN := { l.rdN with dir := .floating }
    wrN := { l.wrN with dir := .floating } }

/-- `out(ALE) <- v`. -/
def Lines.setAle (l : Lines) (v : Level) : Lines := { l with ale := { l.ale with out := v } }

/-- `out(RD_n) <- v`. -/
def Lines.setRdN (l : Lines) (v : Level) : Lines := { l with rdN := { l.rdN with out := v } }

/-- `out(DEN_n) <- v`. -/
def Lines.setDenN (l : Lines) (v : Level) : Lines := { l with denN := { l.denN with out := v } }

/-- `drive(a)` on the machine, as the recorder sees it. -/
def State.driveAddress (s : State) (a : Addr) : State :=
  (s.setLines (s.blk.lines.driveAddress a)).note (.adDriven a)

/-- The address driver's `release()` on the machine, as the recorder sees it. -/
def State.floatAddress (s : State) : State := (s.setLines s.blk.lines.floatAddress).note .adFloated

/-- T4 on the machine, as the recorder sees it. -/
def State.floatLow (s : State) : State := (s.setLines s.blk.lines.floatLow).note .lowFloated

/-- The control lines driven idle, as the recorder sees it. -/
def State.driveControl (s : State) : State := (s.setLines s.blk.lines.driveControl).note .controlDriven

/-- The control lines floated, as the recorder sees it. -/
def State.floatControl (s : State) : State := (s.setLines s.blk.lines.floatControl).note .controlFloated

/-- `ALE` set to `v`, as the recorder sees it. -/
def State.setAle (s : State) (v : Level) : State := (s.setLines (s.blk.lines.setAle v)).note (.ale v)

/-- `RD_n` set to `v`, as the recorder sees it. -/
def State.setRdN (s : State) (v : Level) : State := (s.setLines (s.blk.lines.setRdN v)).note (.rdN v)

/-- `DEN_n` set to `v`, as the recorder sees it. -/
def State.setDenN (s : State) (v : Level) : State := (s.setLines (s.blk.lines.setDenN v)).note (.denN v)

/-! ## Reset (R128, R129) -/

/-- An edge with `rst = 1`: every piece of the block's state takes its value of R48, whatever the phase; `LATCH` and
the target are not the block's and stay. -/
def State.resetEdge (s : State) : State :=
  ((({ s with blk := Block.reset }).note .adFloated).note .controlFloated).note (.hold (!Config.holdActive))

/-- Applies `f` to the state of an outcome that has one. -/
def mapNext (f : State → State) : Host.Outcome State Fault Refusal → Host.Outcome State Fault Refusal
  | .next s => .next (f s)
  | .fault r => .fault r
  | .refused r => .refused r

end Sys2Proof.Machine
end

