-- ==== Sys2Proof/Machine/Flags.lean ====
section
/-! DEFINITION. The views the outside has of the block: `STATUS` (R38), `cmd_ready` (R41), the codes of `OWN` (R32) and
`rsp_status` (R113), and the tests of the ownership state and the acknowledgement. -/

namespace Sys2Proof.Machine

/-- The encoding of `OWN` (R32). -/
def Ownership.code : Ownership → BitVec 2
  | .released => 0b00
  | .requested => 0b01
  | .held => 0b10

/-- The codes of `rsp_status` (R113). -/
def RspStatus.code : RspStatus → BitVec 2
  | .ok => 0b00
  | .illegal => 0b01
  | .badState => 0b10

/-- `STATUS.BUSY` (R44). -/
def State.busy (s : State) : Bool := decide (s.blk.ph ≠ .idle)

/-- A level as one bit (R19). -/
def bitOf (l : Level) : BitVec 1 := BitVec.ofBool l

/-- `STATUS[7:0] = {00, HLDA_S, HOLD, ERR, BUSY, OWN[1:0]}` (R38). -/
def State.status (s : State) : Byte :=
  0b00#2 ++ bitOf s.blk.s2 ++ bitOf s.blk.holdO ++ bitOf s.blk.err ++ bitOf s.busy ++ s.blk.own.code

/-- `cmd_ready` (R41): the phase is `IDLE` and `rst = 0`. -/
def State.cmdReady (s : State) : Bool := decide (s.blk.ph = .idle) && !s.host.pins.rst

/-- A command is accepted at the coming edge (R41). -/
def State.accepts (s : State) : Bool := s.host.pins.cmdValid && s.cmdReady

/-- `Sync(HLDA)` is at its active level (R30). -/
def State.ackSeen (s : State) : Bool := s.blk.s2 == Config.hldaActive

end Sys2Proof.Machine
end

