-- ==== Sys2Proof/Machine/Operands.lean ====
section
/-! DEFINITION. What the block takes from outside a command word: the levels on `AD[7:0]` (R31, R85), with the answer of
the target's devices (R47, R50, R96), and the number of edges of the settle wait (R94). -/

namespace Sys2Proof.Machine

/-- `S = SETTLE * TICKS_PER_US`, the edges of the settle wait (R88, R94). -/
def State.settleEdges (s : State) : Nat := s.blk.settle.toNat * s.params.ticksPerUs

/-- The line carries level `v` at its pin because the block drives it so. -/
def Line.drives (l : Line) (v : Level) : Bool := decide (l.dir = .driven) && (l.out == v)

/-- The read window of R47: `RD_n = 0`, `DEN_n = 0` and `IO_M = 0` at the pins, with `DT_R` turning the transceiver to
receive (R124; log entry 18). -/
def Lines.readWindow (l : Lines) : Bool :=
  l.rdN.drives (!Config.rdIdle) && l.denN.drives (!Config.denIdle) && l.ioM.drives Config.ioMemory &&
    l.dtR.drives Config.dtReceive

/-- The byte a device of the target drives onto the data lines at the coming edge (R47, R50): there is one when the read
window is open, has been open for the access time of the device that `LATCH` selects (`SETTLE_OK`, R96; log entry 7), the
target processor floats its bus (`HLDA` at its active level, R46; log entry 5), and `LATCH` selects a responding address
(R51). -/
def State.deviceByte (s : State) : Option Byte :=
  if s.blk.lines.readWindow && decide (s.target.accessTime s.board.latch.toNat ≤ s.board.openFor) &&
      (s.target.hlda == Config.hldaActive) then
    s.target.mem.read s.board.latch.toNat
  else none

/-- `Sample()` (R85): bit `i` is `pin(AD[i])` (R54). By R31 that is the device's level where the block floats the line
and a device drives it, and any value elsewhere. -/
def State.samplePins (s : State) : Byte :=
  let free := Config.freeByte s.board.edge
  match s.deviceByte with
  | none => free
  | some b =>
    let own := s.blk.lines.ad.driven.extractLsb' 0 8
    (b &&& ~~~own) ||| (free &&& own)

/-- `DATA <- Sample()`, as the recorder sees it (R86, R95). -/
def State.sampleData (s : State) : State := (s.setData s.samplePins).note .adRead

/-- The levels at the pins `AD[19:0]`: the block's where it drives, any value where it floats (R31). Log entry 10. -/
def State.adPins (s : State) : Addr :=
  let ad := s.blk.lines.ad
  (ad.out &&& ad.driven) ||| (Config.freeAddr s.board.edge &&& ~~~ad.driven)

end Sys2Proof.Machine
end

