-- ==== Sys2Proof/Machine/AddressDriver.lean ====
section
/-! DEFINITION. address_driver (41_address_driver.md): `DRIVE` (R82) and `FLOAT` (R83). -/

namespace Sys2Proof.Machine

/-- `DRIVE a` (R82, R71). -/
def execDrive (a : Addr) (s : State) : Host.Outcome State Fault Refusal :=
  if s.blk.own = .held then .next ((s.driveAddress a).respond .ok 0)
  else .next (s.reject .badState)

/-- `FLOAT` (R83, R71). -/
def execFloat (s : State) : Host.Outcome State Fault Refusal :=
  if s.blk.own = .held then .next ((s.floatAddress).respond .ok 0)
  else .next (s.reject .badState)

end Sys2Proof.Machine
end

