-- ==== Sys2Proof/Machine/Arbiter.lean ====
section
/-! DEFINITION. bus_arbiter (40_arbitration.md): `ACQUIRE` (R75) and `RELEASE` (R78), each as what happens at the
accepting edge and what each wait phase does at a later edge. -/

namespace Sys2Proof.Machine

/-- `ACQUIRE` at the accepting edge (R75, R71). -/
def execAcquire (s : State) : Host.Outcome State Fault Refusal :=
  if s.blk.own = .released then
    .next (((s.setHold Config.holdActive).setOwn .requested).setPhase .acqWait)
  else .next (s.reject .badState)

/-- An edge in `ACQ_WAIT` (R75, R76). -/
def State.acqWaitEdge (s : State) : State :=
  if s.ackSeen then (((s.driveControl).setOwn .held).setPhase .idle).respond .ok 0 else s

/-- `RELEASE` at the accepting edge (R78, R71). -/
def execRelease (s : State) : Host.Outcome State Fault Refusal :=
  if s.blk.own = .held then .next (((s.floatAddress).floatControl).setPhase .relHold)
  else .next (s.reject .badState)

/-- The edge in `REL_HOLD` (R78): `HOLD` falls one edge after the lines float (R79). -/
def State.relHoldEdge (s : State) : State := (s.setHold (!Config.holdActive)).setPhase .relWait

/-- An edge in `REL_WAIT` (R78, R80). -/
def State.relWaitEdge (s : State) : State :=
  if s.ackSeen then s else ((s.setOwn .released).setPhase .idle).respond .ok 0

end Sys2Proof.Machine
end

