-- ==== Sys2Proof/Machine/ReadCycle.lean ====
section
/-! DEFINITION. read_strobe_sequencer (43_read_cycle.md): `READ` (R88) as the transition T1 at the accepting edge and the
transitions T2 to T9 that the phases perform when they end (R89). -/

namespace Sys2Proof.Machine

/-- Enters a phase that lasts `PHASE_CYCLES` edges (R89). -/
def State.enterPhase (s : State) (p : Phase) : State := s.enter p s.params.phaseCycles

/-- `READ a` at the accepting edge (R88, R71): T1, the address driver's `drive(a)` (R90). -/
def execRead (a : Addr) (s : State) : Host.Outcome State Fault Refusal :=
  if s.blk.own = .held then .next (((s.setOpnd a).driveAddress a).enterPhase .rcAleHi)
  else .next (s.reject .badState)

/-- T2: the address strobe rises (R91). -/
def State.strobeRise (s : State) : State := (s.setAle (!Config.aleIdle)).enterPhase .rcAleLo

/-- T3: the address strobe falls (R91); the board's latch captures (R45). -/
def State.strobeFall (s : State) : State := (s.setAle Config.aleIdle).enterPhase .rcFloat

/-- T4: the low byte is floated (R92). -/
def State.lowByteRelease (s : State) : State := (s.floatLow).enterPhase .rcRdOn

/-- T5: `RD_n` is asserted (R93). -/
def State.readAssert (s : State) : State := (s.setRdN (!Config.rdIdle)).enterPhase .rcDenOn

/-- T6: `DEN_n` is asserted and the settle wait begins (R93, R94). -/
def State.bufferAssert (s : State) : State :=
  (s.setDenN (!Config.denIdle)).enter .rcSettle s.settleEdges

/-- T7: the sample (R95). -/
def State.settleSample (s : State) : State := (s.sampleData).enterPhase .rcDenOff

/-- T8: `DEN_n` is deasserted (R97). -/
def State.bufferDeassert (s : State) : State := (s.setDenN Config.denIdle).enterPhase .rcRdOff

/-- T9: `RD_n` is deasserted and the response produced (R97). -/
def State.readDeassert (s : State) : State :=
  ((s.setRdN Config.rdIdle).setPhase .idle).respond .ok s.blk.data

/-- An edge in a counting phase that ends with transition `t` (R89): "if CNT = 0 the phase performs its transition and
moves on, else CNT <- CNT - 1". -/
def State.countdown (s : State) (t : State → State) : State :=
  if s.blk.cnt = 0 then t s else { s with blk := { s.blk with cnt := s.blk.cnt - 1 } }

end Sys2Proof.Machine
end

