-- ==== Sys2Proof/Machine/Sampler.lean ====
section
/-! DEFINITION. data_sampler (42_data_sampler.md): `SAMPLE` (R86). -/

namespace Sys2Proof.Machine

/-- `SAMPLE` (R86, R71). -/
def execSample (s : State) : Host.Outcome State Fault Refusal :=
  if s.blk.own = .held then .next ((s.sampleData).respond .ok s.samplePins)
  else .next (s.reject .badState)

end Sys2Proof.Machine
end

