-- ==== Sys2Proof/Machine/Settle.lean ====
section
/-! DEFINITION. Configuration (44_configuration.md): `SETSETTLE` (R102). -/

namespace Sys2Proof.Machine

/-- `SETSETTLE n` (R102). No legal word holds `n = 0`: that operand is `ILLEGAL` here too (R70 item 5; log entry 16). -/
def execSetsettle (n : Micros) (s : State) : Host.Outcome State Fault Refusal :=
  if n = 0 then .next (s.reject .illegal)
  else .next ((s.setSettle n).respond .ok 0)

end Sys2Proof.Machine
end

