-- ==== Sys2Proof/Machine/Dispatch.lean ====
section
/-! DEFINITION. What the block does at the edge that accepts a command (R71): one arm per command. -/

namespace Sys2Proof.Machine

def exec (i : Instr) (s : State) : Host.Outcome State Fault Refusal :=
  match i with
  | .acquire => Sys2Proof.Machine.execAcquire s
  | .release => Sys2Proof.Machine.execRelease s
  | .drive a => Sys2Proof.Machine.execDrive a s
  | .float => Sys2Proof.Machine.execFloat s
  | .sample => Sys2Proof.Machine.execSample s
  | .read a => Sys2Proof.Machine.execRead a s
  | .setsettle n => Sys2Proof.Machine.execSetsettle n s

end Sys2Proof.Machine
end

