-- ==== Sys2Proof/Machine/Edge.lean ====
section
/-! DEFINITION. One rising edge of `clk` (R20): reset, or the acceptance and dispatch of a command (R41, R71), or the
phase in progress (R43); then the synchroniser (R30), the board (R45, R47) and the two agents outside (R46, R104). -/

namespace Sys2Proof.Machine

/-- What the phase in progress does at an edge (R43, R75, R78, R89). -/
def State.phaseEdge (s : State) : State :=
  match s.blk.ph with
  | .idle => s
  | .acqWait => s.acqWaitEdge
  | .relHold => s.relHoldEdge
  | .relWait => s.relWaitEdge
  | .rcAleHi => s.countdown State.strobeRise
  | .rcAleLo => s.countdown State.strobeFall
  | .rcFloat => s.countdown State.lowByteRelease
  | .rcRdOn => s.countdown State.readAssert
  | .rcDenOn => s.countdown State.bufferAssert
  | .rcSettle => s.countdown State.settleSample
  | .rcDenOff => s.countdown State.bufferDeassert
  | .rcRdOff => s.countdown State.readDeassert

/-- Decoding and dispatch of an accepted word (R71): legality before the state test (R116). -/
def dispatch (w : Word32) (s : State) : Host.Outcome State Fault Refusal :=
  match decode w with
  | .error _ => .next (s.reject .illegal)
  | .ok i => exec i s

/-- The synchroniser's two flip-flops at an edge (R30): `s1 <- pin(HLDA)`, `s2 <- s1`. -/
def State.syncShift (s : State) : State :=
  { s with blk := { s.blk with s1 := s.target.hlda, s2 := s.blk.s1 } }

/-- The block at an edge. Its decisions read `Sync(HLDA)` as it was before the edge. -/
def State.blockEdge (s : State) : Host.Outcome State Fault Refusal :=
  if s.host.pins.rst then .next s.resetEdge
  else
    mapNext State.syncShift
      (if s.accepts then dispatch s.host.pins.cmdWord s.quiet else .next s.quiet.phaseEdge)

/-- `LATCH` after an edge (R45): it captures the levels of `AD[19:0]` when the block drives `ALE` from 1 to 0. -/
def latchAfter (before after : State) : Addr :=
  if before.blk.lines.ale.drives (!Config.aleIdle) && after.blk.lines.ale.drives Config.aleIdle then before.adPins
  else after.board.latch

/-- The edges the read window will have been open at the next edge (R47). -/
def openAfter (after : State) : Nat :=
  if after.blk.lines.readWindow then after.board.openFor + 1 else 0

/-- The target processor's `HLDA` for the next edge (R46), with `hold` the level of `HOLD` after this one. The target's
memory stays as it is at every edge, between captures too: DESIGN CHOICE, log entry 28. -/
def Target.answer (t : Target) (hold : Level) : Target :=
  match t.plan with
  | l :: rest => { t with hlda := l, plan := rest, owed := 0 }
  | [] =>
    if (t.hlda == Config.hldaActive) = (hold == Config.holdActive) then { t with owed := 0 }
    else
      match t.delay with
      | none => t
      | some k => if k ≤ t.owed then { t with hlda := !t.hlda, owed := 0 } else { t with owed := t.owed + 1 }

/-- The host's pins for the next edge (R104, R105 duty 1), with `accepted` telling whether this edge accepted the word
on the port. -/
def HostPort.following (h : HostPort) (accepted : Bool) : HostPort :=
  match h.forced with
  | p :: rest => { h with pins := p, forced := rest }
  | [] =>
    if h.pins.cmdValid && !accepted then { h with pins := { h.pins with rst := false } }
    else
      match h.queue with
      | w :: rest => { h with pins := ⟨false, true, w⟩, queue := rest }
      | [] => { h with pins := { h.pins with rst := false, cmdValid := false } }

/-- The board and the agents outside after the block's part of an edge. -/
def State.environment (before after : State) : State :=
  { after with
    host := after.host.following before.accepts
    target := after.target.answer after.blk.holdO
    board := { after.board with
      latch := latchAfter before after
      openFor := openAfter after
      edge := after.board.edge + 1 } }

/-- One edge of the clock. -/
def State.clockEdge (s : State) : Host.Outcome State Fault Refusal :=
  mapNext (State.environment s) s.blockEdge

/-- The machine with the word `w` on the command port, where the coming edge accepts it: `cmd_valid = 1`, `rst = 0` and
the phase `IDLE` (R41). Log entry 17. -/
def State.present (s : State) (w : Word32) : State :=
  { s with
    blk := { s.blk with ph := .idle }
    host := { s.host with pins := ⟨false, true, w⟩ } }

end Sys2Proof.Machine
end

