-- ==== Sys2Proof/Laws/Memory.lean ====
section
/-! SUPPORT. The laws of the target's memory: placing a device keeps the canonical form, is read back, and leaves every
other address alone. -/

namespace Sys2Proof.Machine

theorem Memory.wfFrom_mono {m : Memory} {lo lo' : Nat} (h : lo' ≤ lo) (w : m.wfFrom lo = true) :
    m.wfFrom lo' = true := by
  cases m with
  | nil => rfl
  | cons e rest =>
    simp only [Memory.wfFrom, Bool.and_eq_true, decide_eq_true_eq] at w ⊢
    exact ⟨⟨by omega, w.1.2⟩, w.2⟩

/-- Below the least listed address nothing is listed. -/
theorem Memory.read_below {m : Memory} {lo a : Nat} (w : m.wfFrom lo = true) (h : a < lo) : m.read a = none := by
  induction m generalizing lo with
  | nil => rfl
  | cons e rest ih =>
    simp only [Memory.wfFrom, Bool.and_eq_true, decide_eq_true_eq] at w
    simp only [Memory.read]
    rw [if_neg (by omega)]
    exact ih w.2 (by omega)

theorem Memory.place_wfFrom {m : Memory} {lo a : Nat} (b : Option Byte) (w : m.wfFrom lo = true) (h : lo ≤ a)
    (ha : a < 2 ^ 20) : (m.place a b).wfFrom lo = true := by
  induction m generalizing lo with
  | nil => cases b <;> simp_all [Memory.place, Memory.wfFrom]
  | cons e rest ih =>
    have w' := w
    simp only [Memory.wfFrom, Bool.and_eq_true, decide_eq_true_eq] at w
    simp only [Memory.place]
    split
    · cases b with
      | none => exact w'
      | some v =>
        simp only [Memory.wfFrom, Bool.and_eq_true, decide_eq_true_eq]
        exact ⟨⟨h, ha⟩, ⟨by omega, w.1.2⟩, w.2⟩
    · split
      · cases b with
        | none => exact Memory.wfFrom_mono (by omega) w.2
        | some v =>
          simp only [Memory.wfFrom, Bool.and_eq_true, decide_eq_true_eq]
          subst a
          exact ⟨⟨h, ha⟩, w.2⟩
      · simp only [Memory.wfFrom, Bool.and_eq_true, decide_eq_true_eq]
        exact ⟨w.1, ih w.2 (by omega)⟩

/-- Placing a device at an address of the space keeps the canonical form. -/
theorem Memory.place_wf {m : Memory} {a : Nat} (b : Option Byte) (w : m.wf = true) (ha : a < 2 ^ 20) :
    (m.place a b).wf = true :=
  Memory.place_wfFrom b w (Nat.zero_le a) ha

theorem Memory.read_place_same_from {m : Memory} {lo : Nat} (a : Nat) (b : Option Byte) (w : m.wfFrom lo = true) :
    (m.place a b).read a = b := by
  induction m generalizing lo with
  | nil => cases b <;> simp [Memory.place, Memory.read]
  | cons e rest ih =>
    have w' := w
    simp only [Memory.wfFrom, Bool.and_eq_true, decide_eq_true_eq] at w
    simp only [Memory.place]
    split
    · rename_i hlt
      cases b with
      | none => exact Memory.read_below (lo := e.1) (by simpa [Memory.wfFrom, w.2] using w.1.2) hlt
      | some v => simp [Memory.read]
    · split
      · subst a
        cases b with
        | none => exact Memory.read_below w.2 (by omega)
        | some v => simp [Memory.read]
      · simp only [Memory.read]
        rw [if_neg (by omega)]
        exact ih w.2

/-- A device placed is the device read. -/
theorem Memory.read_place_same {m : Memory} (a : Nat) (b : Option Byte) (w : m.wf = true) :
    (m.place a b).read a = b :=
  Memory.read_place_same_from a b w

/-- Placing a device leaves every other address alone. -/
theorem Memory.read_place_other (m : Memory) {a x : Nat} (b : Option Byte) (h : x ≠ a) :
    (m.place a b).read x = m.read x := by
  induction m with
  | nil => cases b <;> simp [Memory.place, Memory.read, Ne.symm h]
  | cons e rest ih =>
    simp only [Memory.place]
    split
    · cases b <;> simp [Memory.read, Ne.symm h]
    · split
      · subst a
        cases b <;> simp [Memory.read, Ne.symm h]
      · simp only [Memory.read, ih]

/-- The memory of the machine right after reset is in canonical form. -/
theorem State.reset_memory_wf : State.reset.target.mem.wf = true := rfl

end Sys2Proof.Machine
end

