-- ==== Sys2Proof/Laws/State.lean ====
section
/-! SUPPORT. One lemma per field of State per update, and one per field of Lines per line operation, all true by
unfolding, so that no later proof unfolds a record update. -/

namespace Sys2Proof.Machine

variable (s : State)

@[simp] theorem State.setOwn_blk (o : Ownership) : (s.setOwn o).blk = { s.blk with own := o } := rfl
@[simp] theorem State.setOwn_params (o : Ownership) : (s.setOwn o).params = s.params := rfl
@[simp] theorem State.setOwn_host (o : Ownership) : (s.setOwn o).host = s.host := rfl
@[simp] theorem State.setOwn_target (o : Ownership) : (s.setOwn o).target = s.target := rfl
@[simp] theorem State.setOwn_board (o : Ownership) : (s.setOwn o).board = s.board := rfl

@[simp] theorem State.setSettle_blk (n : Micros) : (s.setSettle n).blk = { s.blk with settle := n } := rfl
@[simp] theorem State.setSettle_params (n : Micros) : (s.setSettle n).params = s.params := rfl
@[simp] theorem State.setSettle_host (n : Micros) : (s.setSettle n).host = s.host := rfl
@[simp] theorem State.setSettle_target (n : Micros) : (s.setSettle n).target = s.target := rfl
@[simp] theorem State.setSettle_board (n : Micros) : (s.setSettle n).board = s.board := rfl

@[simp] theorem State.setData_blk (b : Byte) : (s.setData b).blk = { s.blk with data := b } := rfl
@[simp] theorem State.setData_params (b : Byte) : (s.setData b).params = s.params := rfl
@[simp] theorem State.setData_host (b : Byte) : (s.setData b).host = s.host := rfl
@[simp] theorem State.setData_target (b : Byte) : (s.setData b).target = s.target := rfl
@[simp] theorem State.setData_board (b : Byte) : (s.setData b).board = s.board := rfl

@[simp] theorem State.setOpnd_blk (a : Addr) : (s.setOpnd a).blk = { s.blk with opnd := a } := rfl
@[simp] theorem State.setOpnd_params (a : Addr) : (s.setOpnd a).params = s.params := rfl
@[simp] theorem State.setOpnd_host (a : Addr) : (s.setOpnd a).host = s.host := rfl
@[simp] theorem State.setOpnd_target (a : Addr) : (s.setOpnd a).target = s.target := rfl
@[simp] theorem State.setOpnd_board (a : Addr) : (s.setOpnd a).board = s.board := rfl

@[simp] theorem State.setPhase_blk (p : Phase) : (s.setPhase p).blk = { s.blk with ph := p } := rfl
@[simp] theorem State.setPhase_params (p : Phase) : (s.setPhase p).params = s.params := rfl
@[simp] theorem State.setPhase_host (p : Phase) : (s.setPhase p).host = s.host := rfl
@[simp] theorem State.setPhase_target (p : Phase) : (s.setPhase p).target = s.target := rfl
@[simp] theorem State.setPhase_board (p : Phase) : (s.setPhase p).board = s.board := rfl

@[simp] theorem State.enter_blk (p : Phase) (n : Nat) : (s.enter p n).blk = { s.blk with ph := p, cnt := n - 1 } := rfl
@[simp] theorem State.enter_params (p : Phase) (n : Nat) : (s.enter p n).params = s.params := rfl
@[simp] theorem State.enter_host (p : Phase) (n : Nat) : (s.enter p n).host = s.host := rfl
@[simp] theorem State.enter_target (p : Phase) (n : Nat) : (s.enter p n).target = s.target := rfl
@[simp] theorem State.enter_board (p : Phase) (n : Nat) : (s.enter p n).board = s.board := rfl

@[simp] theorem State.enterPhase_blk (p : Phase) : (s.enterPhase p).blk = { s.blk with ph := p, cnt := s.params.phaseCycles - 1 } := rfl
@[simp] theorem State.enterPhase_params (p : Phase) : (s.enterPhase p).params = s.params := rfl
@[simp] theorem State.enterPhase_host (p : Phase) : (s.enterPhase p).host = s.host := rfl
@[simp] theorem State.enterPhase_target (p : Phase) : (s.enterPhase p).target = s.target := rfl
@[simp] theorem State.enterPhase_board (p : Phase) : (s.enterPhase p).board = s.board := rfl

@[simp] theorem State.setErr_blk : s.setErr.blk = { s.blk with err := true } := rfl
@[simp] theorem State.setErr_params : s.setErr.params = s.params := rfl
@[simp] theorem State.setErr_host : s.setErr.host = s.host := rfl
@[simp] theorem State.setErr_target : s.setErr.target = s.target := rfl
@[simp] theorem State.setErr_board : s.setErr.board = s.board := rfl

@[simp] theorem State.respond_blk (st : RspStatus) (d : Byte) : (s.respond st d).blk = { s.blk with rspValid := true, rspStatus := st, rspData := d } := rfl
@[simp] theorem State.respond_params (st : RspStatus) (d : Byte) : (s.respond st d).params = s.params := rfl
@[simp] theorem State.respond_host (st : RspStatus) (d : Byte) : (s.respond st d).host = s.host := rfl
@[simp] theorem State.respond_target (st : RspStatus) (d : Byte) : (s.respond st d).target = s.target := rfl
@[simp] theorem State.respond_board (st : RspStatus) (d : Byte) : (s.respond st d).board = s.board := rfl

@[simp] theorem State.quiet_blk : s.quiet.blk = { s.blk with rspValid := false } := rfl
@[simp] theorem State.quiet_params : s.quiet.params = s.params := rfl
@[simp] theorem State.quiet_host : s.quiet.host = s.host := rfl
@[simp] theorem State.quiet_target : s.quiet.target = s.target := rfl
@[simp] theorem State.quiet_board : s.quiet.board = s.board := rfl

@[simp] theorem State.reject_blk (c : RspStatus) : (s.reject c).blk = { s.blk with err := true, rspValid := true, rspStatus := c, rspData := 0 } := rfl
@[simp] theorem State.reject_params (c : RspStatus) : (s.reject c).params = s.params := rfl
@[simp] theorem State.reject_host (c : RspStatus) : (s.reject c).host = s.host := rfl
@[simp] theorem State.reject_target (c : RspStatus) : (s.reject c).target = s.target := rfl
@[simp] theorem State.reject_board (c : RspStatus) : (s.reject c).board = s.board := rfl

@[simp] theorem State.note_blk (e : LineEvent) : (s.note e).blk = s.blk := rfl
@[simp] theorem State.note_params (e : LineEvent) : (s.note e).params = s.params := rfl
@[simp] theorem State.note_host (e : LineEvent) : (s.note e).host = s.host := rfl
@[simp] theorem State.note_target (e : LineEvent) : (s.note e).target = s.target := rfl
@[simp] theorem State.note_board (e : LineEvent) :
    (s.note e).board = { s.board with recorder := (s.board.edge, e) :: s.board.recorder } := rfl

@[simp] theorem State.setLines_blk (l : Lines) : (s.setLines l).blk = { s.blk with lines := l } := rfl
@[simp] theorem State.setLines_params (l : Lines) : (s.setLines l).params = s.params := rfl
@[simp] theorem State.setLines_host (l : Lines) : (s.setLines l).host = s.host := rfl
@[simp] theorem State.setLines_target (l : Lines) : (s.setLines l).target = s.target := rfl
@[simp] theorem State.setLines_board (l : Lines) : (s.setLines l).board = s.board := rfl

@[simp] theorem State.setHold_blk (l : Level) : (s.setHold l).blk = { s.blk with holdO := l } := rfl
@[simp] theorem State.setHold_params (l : Level) : (s.setHold l).params = s.params := rfl
@[simp] theorem State.setHold_host (l : Level) : (s.setHold l).host = s.host := rfl
@[simp] theorem State.setHold_target (l : Level) : (s.setHold l).target = s.target := rfl
@[simp] theorem State.setHold_board (l : Level) :
    (s.setHold l).board = { s.board with recorder := (s.board.edge, .hold l) :: s.board.recorder } := rfl

@[simp] theorem State.driveAddress_blk (a : Addr) : (s.driveAddress a).blk = { s.blk with lines := s.blk.lines.driveAddress a } := rfl
@[simp] theorem State.driveAddress_params (a : Addr) : (s.driveAddress a).params = s.params := rfl
@[simp] theorem State.driveAddress_host (a : Addr) : (s.driveAddress a).host = s.host := rfl
@[simp] theorem State.driveAddress_target (a : Addr) : (s.driveAddress a).target = s.target := rfl
@[simp] theorem State.driveAddress_board (a : Addr) :
    (s.driveAddress a).board = { s.board with recorder := (s.board.edge, .adDriven a) :: s.board.recorder } := rfl

@[simp] theorem State.floatAddress_blk : s.floatAddress.blk = { s.blk with lines := s.blk.lines.floatAddress } := rfl
@[simp] theorem State.floatAddress_params : s.floatAddress.params = s.params := rfl
@[simp] theorem State.floatAddress_host : s.floatAddress.host = s.host := rfl
@[simp] theorem State.floatAddress_target : s.floatAddress.target = s.target := rfl
@[simp] theorem State.floatAddress_board :
    s.floatAddress.board = { s.board with recorder := (s.board.edge, .adFloated) :: s.board.recorder } := rfl

@[simp] theorem State.floatLow_blk : s.floatLow.blk = { s.blk with lines := s.blk.lines.floatLow } := rfl
@[simp] theorem State.floatLow_params : s.floatLow.params = s.params := rfl
@[simp] theorem State.floatLow_host : s.floatLow.host = s.host := rfl
@[simp] theorem State.floatLow_target : s.floatLow.target = s.target := rfl
@[simp] theorem State.floatLow_board :
    s.floatLow.board = { s.board with recorder := (s.board.edge, .lowFloated) :: s.board.recorder } := rfl

@[simp] theorem State.driveControl_blk : s.driveControl.blk = { s.blk with lines := s.blk.lines.driveControl } := rfl
@[simp] theorem State.driveControl_params : s.driveControl.params = s.params := rfl
@[simp] theorem State.driveControl_host : s.driveControl.host = s.host := rfl
@[simp] theorem State.driveControl_target : s.driveControl.target = s.target := rfl
@[simp] theorem State.driveControl_board :
    s.driveControl.board = { s.board with recorder := (s.board.edge, .controlDriven) :: s.board.recorder } := rfl

@[simp] theorem State.floatControl_blk : s.floatControl.blk = { s.blk with lines := s.blk.lines.floatControl } := rfl
@[simp] theorem State.floatControl_params : s.floatControl.params = s.params := rfl
@[simp] theorem State.floatControl_host : s.floatControl.host = s.host := rfl
@[simp] theorem State.floatControl_target : s.floatControl.target = s.target := rfl
@[simp] theorem State.floatControl_board :
    s.floatControl.board = { s.board with recorder := (s.board.edge, .controlFloated) :: s.board.recorder } := rfl

@[simp] theorem State.setAle_blk (v : Level) : (s.setAle v).blk = { s.blk with lines := s.blk.lines.setAle v } := rfl
@[simp] theorem State.setAle_params (v : Level) : (s.setAle v).params = s.params := rfl
@[simp] theorem State.setAle_host (v : Level) : (s.setAle v).host = s.host := rfl
@[simp] theorem State.setAle_target (v : Level) : (s.setAle v).target = s.target := rfl
@[simp] theorem State.setAle_board (v : Level) :
    (s.setAle v).board = { s.board with recorder := (s.board.edge, .ale v) :: s.board.recorder } := rfl

@[simp] theorem State.setRdN_blk (v : Level) : (s.setRdN v).blk = { s.blk with lines := s.blk.lines.setRdN v } := rfl
@[simp] theorem State.setRdN_params (v : Level) : (s.setRdN v).params = s.params := rfl
@[simp] theorem State.setRdN_host (v : Level) : (s.setRdN v).host = s.host := rfl
@[simp] theorem State.setRdN_target (v : Level) : (s.setRdN v).target = s.target := rfl
@[simp] theorem State.setRdN_board (v : Level) :
    (s.setRdN v).board = { s.board with recorder := (s.board.edge, .rdN v) :: s.board.recorder } := rfl

@[simp] theorem State.setDenN_blk (v : Level) : (s.setDenN v).blk = { s.blk with lines := s.blk.lines.setDenN v } := rfl
@[simp] theorem State.setDenN_params (v : Level) : (s.setDenN v).params = s.params := rfl
@[simp] theorem State.setDenN_host (v : Level) : (s.setDenN v).host = s.host := rfl
@[simp] theorem State.setDenN_target (v : Level) : (s.setDenN v).target = s.target := rfl
@[simp] theorem State.setDenN_board (v : Level) :
    (s.setDenN v).board = { s.board with recorder := (s.board.edge, .denN v) :: s.board.recorder } := rfl

@[simp] theorem State.sampleData_blk : s.sampleData.blk = { s.blk with data := s.samplePins } := rfl
@[simp] theorem State.sampleData_params : s.sampleData.params = s.params := rfl
@[simp] theorem State.sampleData_host : s.sampleData.host = s.host := rfl
@[simp] theorem State.sampleData_target : s.sampleData.target = s.target := rfl
@[simp] theorem State.sampleData_board :
    s.sampleData.board = { s.board with recorder := (s.board.edge, .adRead) :: s.board.recorder } := rfl

@[simp] theorem State.syncShift_blk : s.syncShift.blk = { s.blk with s1 := s.target.hlda, s2 := s.blk.s1 } := rfl
@[simp] theorem State.syncShift_params : s.syncShift.params = s.params := rfl
@[simp] theorem State.syncShift_host : s.syncShift.host = s.host := rfl
@[simp] theorem State.syncShift_target : s.syncShift.target = s.target := rfl
@[simp] theorem State.syncShift_board : s.syncShift.board = s.board := rfl

variable (l : Lines)

@[simp] theorem Lines.driveAddress_ad (a : Addr) : (l.driveAddress a).ad = ⟨0xFFFFF, a⟩ := rfl
@[simp] theorem Lines.driveAddress_ale (a : Addr) : (l.driveAddress a).ale = l.ale := rfl
@[simp] theorem Lines.driveAddress_denN (a : Addr) : (l.driveAddress a).denN = l.denN := rfl
@[simp] theorem Lines.driveAddress_dtR (a : Addr) : (l.driveAddress a).dtR = l.dtR := rfl
@[simp] theorem Lines.driveAddress_ioM (a : Addr) : (l.driveAddress a).ioM = l.ioM := rfl
@[simp] theorem Lines.driveAddress_rdN (a : Addr) : (l.driveAddress a).rdN = l.rdN := rfl
@[simp] theorem Lines.driveAddress_wrN (a : Addr) : (l.driveAddress a).wrN = l.wrN := rfl

@[simp] theorem Lines.floatAddress_ad : l.floatAddress.ad = ⟨0, l.ad.out⟩ := rfl
@[simp] theorem Lines.floatAddress_ale : l.floatAddress.ale = l.ale := rfl
@[simp] theorem Lines.floatAddress_denN : l.floatAddress.denN = l.denN := rfl
@[simp] theorem Lines.floatAddress_dtR : l.floatAddress.dtR = l.dtR := rfl
@[simp] theorem Lines.floatAddress_ioM : l.floatAddress.ioM = l.ioM := rfl
@[simp] theorem Lines.floatAddress_rdN : l.floatAddress.rdN = l.rdN := rfl
@[simp] theorem Lines.floatAddress_wrN : l.floatAddress.wrN = l.wrN := rfl

@[simp] theorem Lines.floatLow_ad : l.floatLow.ad = ⟨l.ad.driven &&& 0xFFF00, l.ad.out⟩ := rfl
@[simp] theorem Lines.floatLow_ale : l.floatLow.ale = l.ale := rfl
@[simp] theorem Lines.floatLow_denN : l.floatLow.denN = l.denN := rfl
@[simp] theorem Lines.floatLow_dtR : l.floatLow.dtR = l.dtR := rfl
@[simp] theorem Lines.floatLow_ioM : l.floatLow.ioM = l.ioM := rfl
@[simp] theorem Lines.floatLow_rdN : l.floatLow.rdN = l.rdN := rfl
@[simp] theorem Lines.floatLow_wrN : l.floatLow.wrN = l.wrN := rfl

@[simp] theorem Lines.driveControl_ad : l.driveControl.ad = l.ad := rfl
@[simp] theorem Lines.driveControl_ale : l.driveControl.ale = ⟨.driven, false⟩ := rfl
@[simp] theorem Lines.driveControl_denN : l.driveControl.denN = ⟨.driven, true⟩ := rfl
@[simp] theorem Lines.driveControl_dtR : l.driveControl.dtR = ⟨.driven, false⟩ := rfl
@[simp] theorem Lines.driveControl_ioM : l.driveControl.ioM = ⟨.driven, false⟩ := rfl
@[simp] theorem Lines.driveControl_rdN : l.driveControl.rdN = ⟨.driven, true⟩ := rfl
@[simp] theorem Lines.driveControl_wrN : l.driveControl.wrN = ⟨.driven, true⟩ := rfl

@[simp] theorem Lines.floatControl_ad : l.floatControl.ad = l.ad := rfl
@[simp] theorem Lines.floatControl_ale : l.floatControl.ale = ⟨.floating, l.ale.out⟩ := rfl
@[simp] theorem Lines.floatControl_denN : l.floatControl.denN = ⟨.floating, l.denN.out⟩ := rfl
@[simp] theorem Lines.floatControl_dtR : l.floatControl.dtR = ⟨.floating, l.dtR.out⟩ := rfl
@[simp] theorem Lines.floatControl_ioM : l.floatControl.ioM = ⟨.floating, l.ioM.out⟩ := rfl
@[simp] theorem Lines.floatControl_rdN : l.floatControl.rdN = ⟨.floating, l.rdN.out⟩ := rfl
@[simp] theorem Lines.floatControl_wrN : l.floatControl.wrN = ⟨.floating, l.wrN.out⟩ := rfl

@[simp] theorem Lines.setAle_ad (v : Level) : (l.setAle v).ad = l.ad := rfl
@[simp] theorem Lines.setAle_ale (v : Level) : (l.setAle v).ale = ⟨l.ale.dir, v⟩ := rfl
@[simp] theorem Lines.setAle_denN (v : Level) : (l.setAle v).denN = l.denN := rfl
@[simp] theorem Lines.setAle_dtR (v : Level) : (l.setAle v).dtR = l.dtR := rfl
@[simp] theorem Lines.setAle_ioM (v : Level) : (l.setAle v).ioM = l.ioM := rfl
@[simp] theorem Lines.setAle_rdN (v : Level) : (l.setAle v).rdN = l.rdN := rfl
@[simp] theorem Lines.setAle_wrN (v : Level) : (l.setAle v).wrN = l.wrN := rfl

@[simp] theorem Lines.setRdN_ad (v : Level) : (l.setRdN v).ad = l.ad := rfl
@[simp] theorem Lines.setRdN_ale (v : Level) : (l.setRdN v).ale = l.ale := rfl
@[simp] theorem Lines.setRdN_denN (v : Level) : (l.setRdN v).denN = l.denN := rfl
@[simp] theorem Lines.setRdN_dtR (v : Level) : (l.setRdN v).dtR = l.dtR := rfl
@[simp] theorem Lines.setRdN_ioM (v : Level) : (l.setRdN v).ioM = l.ioM := rfl
@[simp] theorem Lines.setRdN_rdN (v : Level) : (l.setRdN v).rdN = ⟨l.rdN.dir, v⟩ := rfl
@[simp] theorem Lines.setRdN_wrN (v : Level) : (l.setRdN v).wrN = l.wrN := rfl

@[simp] theorem Lines.setDenN_ad (v : Level) : (l.setDenN v).ad = l.ad := rfl
@[simp] theorem Lines.setDenN_ale (v : Level) : (l.setDenN v).ale = l.ale := rfl
@[simp] theorem Lines.setDenN_denN (v : Level) : (l.setDenN v).denN = ⟨l.denN.dir, v⟩ := rfl
@[simp] theorem Lines.setDenN_dtR (v : Level) : (l.setDenN v).dtR = l.dtR := rfl
@[simp] theorem Lines.setDenN_ioM (v : Level) : (l.setDenN v).ioM = l.ioM := rfl
@[simp] theorem Lines.setDenN_rdN (v : Level) : (l.setDenN v).rdN = l.rdN := rfl
@[simp] theorem Lines.setDenN_wrN (v : Level) : (l.setDenN v).wrN = l.wrN := rfl

variable (after : State)

@[simp] theorem State.environment_blk : (s.environment after).blk = after.blk := rfl
@[simp] theorem State.environment_params : (s.environment after).params = after.params := rfl
@[simp] theorem State.environment_host : (s.environment after).host = after.host.following s.accepts := rfl
@[simp] theorem State.environment_target : (s.environment after).target = after.target.answer after.blk.holdO := rfl
@[simp] theorem State.environment_latch : (s.environment after).board.latch = latchAfter s after := rfl
@[simp] theorem State.environment_openFor : (s.environment after).board.openFor = openAfter after := rfl
@[simp] theorem State.environment_recorder : (s.environment after).board.recorder = after.board.recorder := rfl
@[simp] theorem State.environment_edge : (s.environment after).board.edge = after.board.edge + 1 := rfl

@[simp] theorem State.resetEdge_blk : s.resetEdge.blk = Block.reset := rfl
@[simp] theorem State.resetEdge_params : s.resetEdge.params = s.params := rfl
@[simp] theorem State.resetEdge_host : s.resetEdge.host = s.host := rfl
@[simp] theorem State.resetEdge_target : s.resetEdge.target = s.target := rfl
@[simp] theorem State.resetEdge_latch : s.resetEdge.board.latch = s.board.latch := rfl
@[simp] theorem State.resetEdge_openFor : s.resetEdge.board.openFor = s.board.openFor := rfl
@[simp] theorem State.resetEdge_edge : s.resetEdge.board.edge = s.board.edge := rfl

/-- The levels of 20 driven lines are those the block puts on them (R31). -/
@[simp] theorem and_fullAddress (a : Addr) : a &&& 0xFFFFF#20 = a := by
  rw [show 0xFFFFF#20 = BitVec.allOnes 20 by decide]
  exact BitVec.and_allOnes

/-- T4 after T1 leaves the high lines driven (R92). -/
@[simp] theorem fullAddress_and_high : 0xFFFFF#20 &&& 0xFFF00#20 = 0xFFF00#20 := by decide

@[simp] theorem mapNext_next (f : State → State) : mapNext f (.next s) = .next (f s) := rfl

end Sys2Proof.Machine
end

