-- ==== Sys2Proof/Machine/Assembler.lean ====
section
/-! DEFINITION. The textual form of commands (R72), the pseudo-commands (R73) and the host's capture sequence (R106). The
block never sees any of these: they make the words a host presents. Log entry 24. -/

namespace Sys2Proof.Machine

/-- Why the assembler refuses a line (R72, R73). -/
inductive AsmError where
  /-- The first word of the line is no mnemonic. -/
  | mnemonic
  /-- A command with an operand was given none. -/
  | missingOperand
  /-- A shape N command was given an operand. -/
  | extraOperand
  /-- The operand is no literal of its kind, or out of range. -/
  | badOperand
deriving DecidableEq, Repr

/-- `READN a, n` (R73): `READ a`, `READ a+1`, ..., `READ a+n-1`. -/
def readN (a n : Nat) : List Instr := (List.range n).map fun k => Instr.read (BitVec.ofNat 20 (a + k))

/-- The `READ`s of a capture and the offsets of its artifact (R73, R107, R108). -/
def captureLength : Nat := 1048576

/-- `CAPTURE` (R73, R106): one capture, as the host sends it. -/
def capture : List Instr := [.acquire] ++ readN 0 captureLength ++ [.float, .release]

/-- The value of a digit, upper or lower case (R72). -/
def digitValue (c : Char) : Option Nat :=
  if '0' ≤ c ∧ c ≤ '9' then some (c.toNat - 48)
  else if 'A' ≤ c ∧ c ≤ 'F' then some (c.toNat - 55)
  else if 'a' ≤ c ∧ c ≤ 'f' then some (c.toNat - 87)
  else none

/-- The digits of `cs` in base `base`, continuing from `acc`; `none` at the first character that is no such digit. -/
def digits (base acc : Nat) : List Char → Option Nat
  | [] => some acc
  | c :: cs =>
    match digitValue c with
    | some d => if d < base then digits base (acc * base + d) cs else none
    | none => none

/-- A number: `0x` and hexadecimal digits, or decimal digits, at least one. -/
def number : List Char → Option Nat
  | [] => none
  | '0' :: 'x' :: [] => none
  | '0' :: 'x' :: cs => digits 16 0 cs
  | cs => digits 10 0 cs

/-- An address operand (R72): `0x` and 1 to 5 hexadecimal digits. -/
def addressOperand (cs : List Char) : Except AsmError Nat :=
  if cs.isEmpty then .error .missingOperand
  else
    match cs with
    | '0' :: 'x' :: ds =>
      if 1 ≤ ds.length ∧ ds.length ≤ 5 then
        match digits 16 0 ds with
        | some a => .ok a
        | none => .error .badOperand
      else .error .badOperand
    | _ => .error .badOperand

/-- A value operand (R72): 1 to 65535, decimal or hexadecimal. -/
def valueOperand (cs : List Char) : Except AsmError Nat :=
  if cs.isEmpty then .error .missingOperand
  else
    match number cs with
    | some n => if 1 ≤ n ∧ n ≤ 65535 then .ok n else .error .badOperand
    | none => .error .badOperand

/-- The operands of `READN a, n` (R73): `n >= 1` and `a + n - 1 <= 0xFFFFF`. -/
def readNOperands (cs : List Char) : Except AsmError (Nat × Nat) :=
  let first := (cs.takeWhile (· != ',')).reverse.dropWhile (· == ' ')
  let second := (cs.dropWhile (· != ',')).tail.dropWhile (· == ' ')
  match addressOperand first.reverse with
  | .error e => .error e
  | .ok a =>
    if second.isEmpty then .error .missingOperand
    else
      match number second with
      | some n => if 1 ≤ n ∧ a + n - 1 ≤ 0xFFFFF then .ok (a, n) else .error .badOperand
      | none => .error .badOperand

/-- A command without operand (R72). -/
def plain (cs : List Char) (is : List Instr) : Except AsmError (List Instr) :=
  if cs.isEmpty then .ok is else .error .extraOperand

/-- The commands of a mnemonic with operand text `cs` (R72, R73). -/
def assembleCommand (name cs : List Char) : Except AsmError (List Instr) :=
  if name = ['A', 'C', 'Q', 'U', 'I', 'R', 'E'] then plain cs [.acquire]
  else if name = ['R', 'E', 'L', 'E', 'A', 'S', 'E'] then plain cs [.release]
  else if name = ['D', 'R', 'I', 'V', 'E'] then
    (addressOperand cs).map fun a => [.drive (BitVec.ofNat 20 a)]
  else if name = ['F', 'L', 'O', 'A', 'T'] then plain cs [.float]
  else if name = ['S', 'A', 'M', 'P', 'L', 'E'] then plain cs [.sample]
  else if name = ['R', 'E', 'A', 'D'] then
    (addressOperand cs).map fun a => [.read (BitVec.ofNat 20 a)]
  else if name = ['S', 'E', 'T', 'S', 'E', 'T', 'T', 'L', 'E'] then
    (valueOperand cs).map fun n => [.setsettle (BitVec.ofNat 16 n)]
  else if name = ['R', 'E', 'A', 'D', 'N'] then
    (readNOperands cs).map fun p => readN p.1 p.2
  else if name = ['C', 'A', 'P', 'T', 'U', 'R', 'E'] then plain cs capture
  else .error .mnemonic

/-- A line without its comment and its outer spaces (R72: "A `;` starts a comment that runs to the end of the line"). -/
def stripLine (cs : List Char) : List Char :=
  (((cs.takeWhile (· != ';')).reverse.dropWhile (· == ' ')).reverse).dropWhile (· == ' ')

/-- The commands of one line; an empty line has none. -/
def assembleLine (cs : List Char) : Except AsmError (List Instr) :=
  let body := stripLine cs
  if body.isEmpty then .ok []
  else assembleCommand (body.takeWhile (· != ' ')) ((body.dropWhile (· != ' ')).dropWhile (· == ' '))

/-- The words of one line. -/
def assembleWords (cs : List Char) : Except AsmError (List Word32) := (assembleLine cs).map fun is => is.map encode

/-- The words of a program given line by line, in order; the first refused line refuses the program. -/
def assembleProgram : List (List Char) → Except AsmError (List Word32)
  | [] => .ok []
  | l :: ls =>
    match assembleWords l, assembleProgram ls with
    | .ok ws, .ok rest => .ok (ws ++ rest)
    | .error e, _ => .error e
    | .ok _, .error e => .error e

end Sys2Proof.Machine
end

