-- ==== Sys2Proof/Machine/Capture.lean ====
section
/-! DEFINITION. The host's capture (R106 to R109): the words it presents to the machine, the responses it takes from the
machine's run, and the artifact it makes of them. Log entry 27. -/

namespace Sys2Proof.Machine

/-- A response as the host takes it (R42, R105 duty 2). -/
structure Response where
  status : RspStatus
  data : Byte
deriving DecidableEq, Repr

/-- The response the block shows in the cycle after an edge, if there is one (R42). -/
def State.response (s : State) : List Response :=
  if s.blk.rspValid then [⟨s.blk.rspStatus, s.blk.rspData⟩] else []

/-- The responses produced at the `n` edges from `s` on, in order, each taken once (R105 duty 2). -/
def responses : Nat → State → List Response
  | 0, _ => []
  | n + 1, s =>
    match step s with
    | .next t => t.response ++ responses n t
    | .fault _ => []
    | .refused _ => []

/-- The host presents the words `ws` one after the other, each until it is accepted (R105 duty 1). -/
def State.offer (s : State) (ws : List Word32) : State :=
  match ws with
  | [] => s
  | w :: rest => { s with host := ⟨⟨false, true, w⟩, [], rest⟩ }

/-- The host starts a capture: it presents the words of `CAPTURE` (R106). -/
def State.startCapture (s : State) : State := s.offer (capture.map encode)

/-- `b_k`, the data of the answer to `READ k` in a capture (R106): commands answer one by one in order (R60, R42), so the
answer to `ACQUIRE` is the first and that to `READ k` follows `k` others; only `OK` carries a sample. Log entries 27 and
29. -/
def captureSample (rs : List Response) (k : Nat) : Option Byte :=
  match rs[k + 1]? with
  | some ⟨.ok, d⟩ => some d
  | _ => none

/-- What reaches the sink at offset `k`, where forwarding fails at the offsets `lost` (R109). -/
def forwarded (lost : List Nat) (rs : List Response) (k : Nat) : Option Byte :=
  if k ∈ lost then none else captureSample rs k

/-- The byte written at an offset: what reached the sink, or the placeholder `0x00` (R109). -/
def artifactByte : Option Byte → Byte
  | some b => b
  | none => 0

/-- The first `len` offsets of an artifact and the count of failed ones among them (R108, R109). -/
def artifactUpTo (len : Nat) (got : Nat → Option Byte) : List Byte × Nat :=
  ((List.range len).map fun k => artifactByte (got k), (List.range len).countP fun k => (got k).isNone)

/-- The artifact: exactly 1,048,576 bytes, byte `k` at offset `k`, and the count of failed offsets (R108, R109). -/
def artifact (got : Nat → Option Byte) : List Byte × Nat := artifactUpTo captureLength got

/-- The answers to the capture's own words among the responses of `n` edges: all of them, but for the first one where a
command of before the capture is still running in `s`, whose answer that is (R60). DESIGN CHOICE, log entry 29. -/
def State.captureAnswers (s : State) (n : Nat) : List Response :=
  (responses n s.startCapture).drop (if s.busy then 1 else 0)

/-- `ACQUIRE`, `FLOAT` and `RELEASE` have each answered `(OK, 0x00)`, as R106 waits for. Log entry 29. -/
def captureDone (rs : List Response) : Bool :=
  [0, captureLength + 1, captureLength + 2].all fun i => decide (rs[i]? = some ⟨.ok, 0⟩)

/-- What a capture started in `s` has made after `n` edges: nothing until `RELEASE` has answered, and then the artifact of
the samples the machine answered (R106: `sink.finalize()` follows `RELEASE`). A capture started while the bus is held,
whose `ACQUIRE` answers `BADSTATE`, makes none. DESIGN CHOICE, log entry 29. -/
def State.captureArtifact (s : State) (lost : List Nat) (n : Nat) : Option (List Byte × Nat) :=
  let rs := s.captureAnswers n
  if captureDone rs then some (artifact (forwarded lost rs)) else none

end Sys2Proof.Machine
end

