-- ==== Sys2Proof/Safety.lean ====
section
/-! DEFINITION. What claims are stated in: the lines by name (R25), the rejection test (R71, R115), the named premises of
92_eei_decisions.md, and the invariant of the machine (R34, R35, R29, R43). -/

namespace Sys2Proof.Machine

/-! ## The 26 switchable lines by name (R25) -/

/-- A switchable line. -/
inductive SwLine where
  | ad (i : Fin 20)
  | ale
  | denN
  | dtR
  | ioM
  | rdN
  | wrN
deriving DecidableEq, Repr

/-- `dir(L)` (R26). -/
def Lines.dir (l : Lines) : SwLine → LineDir
  | .ad i => if l.ad.driven.getLsbD i then .driven else .floating
  | .ale => l.ale.dir
  | .denN => l.denN.dir
  | .dtR => l.dtR.dir
  | .ioM => l.ioM.dir
  | .rdN => l.rdN.dir
  | .wrN => l.wrN.dir

/-- `out(L)` (R26). -/
def Lines.out (l : Lines) : SwLine → Level
  | .ad i => l.ad.out.getLsbD i
  | .ale => l.ale.out
  | .denN => l.denN.out
  | .dtR => l.dtR.out
  | .ioM => l.ioM.out
  | .rdN => l.rdN.out
  | .wrN => l.wrN.out

/-- Every switchable line is `Floating`. -/
def Lines.allFloating (l : Lines) : Prop := ∀ x : SwLine, l.dir x = .floating

/-! ## Rejection (R70, R71, R115) -/

/-- `state_ok(op, OWN)` (R71). -/
def stateOk : Instr → Ownership → Bool
  | .acquire, o => o == .released
  | .release, o => o == .held
  | .drive _, o => o == .held
  | .float, o => o == .held
  | .sample, o => o == .held
  | .read _, o => o == .held
  | .setsettle _, _ => true

/-- The code with which an accepted word is rejected (R115, R116), or `none` where it is performed. -/
def rejectCode (w : Word32) (o : Ownership) : Option RspStatus :=
  match decode w with
  | .error _ => some .illegal
  | .ok i => if stateOk i o then none else some .badState

/-! ## Named premises (92_eei_decisions.md) -/

/-- No reset comes at the coming edge or at the `n` edges after it. -/
def State.NoReset (s : State) (n : Nat) : Prop :=
  s.host.pins.rst = false ∧ ∀ p ∈ s.host.forced.take n, p.rst = false

/-- `STATIC_TARGET` at one address (R51): a device responds at `a`, with `b` at every read. -/
def State.Answers (s : State) (a : Addr) (b : Byte) : Prop := s.target.mem.read a.toNat = some b

/-- `SETTLE_OK` at one address (R96): the settle wait covers the access time of the device at `a`. -/
def State.SettleOk (s : State) (a : Addr) : Prop := s.target.accessTime a.toNat ≤ s.settleEdges

/-- `HANDSHAKE` while the bus is held (R46, D21): `HLDA` is high now and nothing the target has planned lowers it. -/
def State.KeepsGrant (s : State) : Prop := s.target.hlda = true ∧ ∀ l ∈ s.target.plan, l = true

/-- The board's parameters are in their ranges (R13, R14). -/
def Params.Ok (p : Params) : Prop := 1 ≤ p.phaseCycles ∧ 1 ≤ p.ticksPerUs

/-! ## Runs -/

/-- `n` edges of the machine, by the host's own `run`. -/
abbrev run (n : Nat) (s : State) : Host.Outcome State Fault Refusal := Host.Core.run Sys2Proof.core n s

/-- The edges of a `READ` accepted in `s` (R101): `7 * PHASE_CYCLES + SETTLE * TICKS_PER_US`. -/
def State.readEdges (s : State) : Nat := 7 * s.params.phaseCycles + s.settleEdges

/-- The edges of a whole capture with a target that answers `d` edges later than at once (R138, SRC-S4): `ACQUIRE`, the
`READ`s one after the other, `FLOAT` and `RELEASE`. -/
def State.captureEdges (s : State) (d : Nat) : Nat :=
  (d + 4) + captureLength * (s.readEdges + 1) + 1 + (d + 5)

/-- The coming edge accepts the command `i` (R41). -/
def State.Accepts (s : State) (i : Instr) : Prop := s.accepts = true ∧ decode s.host.pins.cmdWord = .ok i

/-- The coming edge rejects the word on the port (R114). -/
def State.rejects (s : State) : Bool :=
  s.accepts && (rejectCode s.host.pins.cmdWord s.blk.own).isSome

/-- The block after an edge that completes nothing and changes nothing but the synchroniser and `rsp_valid` (R30, R42). -/
def State.idleBlock (s : State) : Block :=
  { s.blk with rspValid := false, s1 := s.target.hlda, s2 := s.blk.s1 }

/-- The pin `HLDA` is at level `v` at the coming edge and at each of the `n` edges after it, whatever puts it there (R76,
R80). -/
def State.PinStays (s : State) (n : Nat) (v : Level) : Prop :=
  ∀ j, j ≤ n → ∃ u, run j s = .next u ∧ u.target.hlda = v

/-! ## The invariant -/

/-- The phases of a `READ` (R43). -/
def Phase.reading : Phase → Bool
  | .rcAleHi | .rcAleLo | .rcFloat | .rcRdOn | .rcDenOn | .rcSettle | .rcDenOff | .rcRdOff => true
  | .idle | .acqWait | .relHold | .relWait => false

/-- The phases of a `RELEASE` (R43). -/
def Phase.releasing : Phase → Bool
  | .relHold | .relWait => true
  | _ => false

/-- From T1 to T4 all 20 address lines are driven (R88). -/
def Phase.fullAddress : Phase → Bool
  | .rcAleHi | .rcAleLo | .rcFloat => true
  | _ => false

/-- From T4 on the low byte floats (R92). -/
def Phase.highAddress : Phase → Bool
  | .rcRdOn | .rcDenOn | .rcSettle | .rcDenOff | .rcRdOff => true
  | _ => false

/-- From T3 on the latch holds the operand (R52). -/
def Phase.latched : Phase → Bool
  | .rcFloat | .rcRdOn | .rcDenOn | .rcSettle | .rcDenOff | .rcRdOff => true
  | _ => false

/-- From T5 to T9 `RD_n` is asserted (R98). -/
def Phase.readStrobe : Phase → Bool
  | .rcDenOn | .rcSettle | .rcDenOff | .rcRdOff => true
  | _ => false

/-- From T6 to T8 `DEN_n` is asserted (R98). -/
def Phase.bufferOn : Phase → Bool
  | .rcSettle | .rcDenOff => true
  | _ => false

/-- The control lines are `Driven` (R35): the bus is held and no `RELEASE` runs. -/
def Block.controlOn (b : Block) : Bool := decide (b.own = .held) && !b.ph.releasing

/-- The direction of the control lines as R35 gives it. -/
def Block.controlDir (b : Block) : LineDir := if b.controlOn then .driven else .floating

/-- The invariant of the machine: what every edge keeps true. -/
structure State.Inv (s : State) : Prop where
  /-- R13, R14. -/
  phaseCycles : 1 ≤ s.params.phaseCycles
  ticksPerUs : 1 ≤ s.params.ticksPerUs
  /-- R36: legal values are 1 to 65535. -/
  settle : s.blk.settle ≠ 0
  /-- R33, R43: `OWN` in each phase. -/
  requested : s.blk.own = .requested ↔ s.blk.ph = .acqWait
  held : s.blk.ph.reading = true ∨ s.blk.ph.releasing = true → s.blk.own = .held
  /-- R75, R78: `HOLD` while the block requests or holds the bus, until `RELEASE` lets it fall. -/
  hold : s.blk.holdO = decide (s.blk.own ≠ .released ∧ s.blk.ph ≠ .relWait)
  /-- R35: the control lines change direction together. -/
  aleDir : s.blk.lines.ale.dir = s.blk.controlDir
  denDir : s.blk.lines.denN.dir = s.blk.controlDir
  dtDir : s.blk.lines.dtR.dir = s.blk.controlDir
  ioDir : s.blk.lines.ioM.dir = s.blk.controlDir
  rdDir : s.blk.lines.rdN.dir = s.blk.controlDir
  wrDir : s.blk.lines.wrN.dir = s.blk.controlDir
  /-- R91, R98: the levels of the strobes, phase by phase. -/
  aleOut : s.blk.lines.ale.out = decide (s.blk.ph = .rcAleLo)
  rdOut : s.blk.lines.rdN.out = !s.blk.ph.readStrobe
  denOut : s.blk.lines.denN.out = !s.blk.ph.bufferOn
  /-- R29. -/
  wrOut : s.blk.lines.wrN.out = true
  ioOut : s.blk.lines.ioM.out = false
  dtOut : s.blk.lines.dtR.out = false
  /-- R34, R88, R92, R100: the directions of the address lines. -/
  adFloating : s.blk.controlOn = false → s.blk.lines.ad.driven = 0
  adFull : s.blk.ph.fullAddress = true → s.blk.lines.ad.driven = 0xFFFFF
  adHigh : s.blk.ph.highAddress = true → s.blk.lines.ad.driven = 0xFFF00
  adIdle : s.blk.lines.ad.driven = 0 ∨ s.blk.lines.ad.driven = 0xFFFFF ∨
    s.blk.lines.ad.driven = 0xFFF00
  /-- R88: the address stays on the lines through the cycle. -/
  adOut : s.blk.ph.reading = true → s.blk.lines.ad.out = s.blk.opnd
  /-- R52: the latch has the address from T3 on. -/
  latch : s.blk.ph.latched = true → s.board.latch = s.blk.opnd
  /-- R43, R89: `CNT` stays below the length of its phase. -/
  cntIdle : s.blk.ph.reading = false → s.blk.cnt = 0
  cntPhase : s.blk.ph.reading = true → s.blk.ph ≠ .rcSettle → s.blk.cnt < s.params.phaseCycles
  cntSettle : s.blk.ph = .rcSettle → s.blk.cnt < s.settleEdges
  /-- R47, R94: how long the read window has been open. -/
  openClosed : s.blk.ph.bufferOn = false → s.board.openFor = 0
  openSettle : s.blk.ph = .rcSettle → s.board.openFor + s.blk.cnt = s.settleEdges
  /-- R42: a response is present only after its command has completed. -/
  rspIdle : s.blk.rspValid = true → s.blk.ph = .idle
  /-- R114: a rejection has data `0x00` and leaves `ERR` set. -/
  rspReject : s.blk.rspStatus ≠ .ok → s.blk.rspData = 0 ∧ s.blk.err = true
  /-- The target's memory keeps its canonical form (R49). -/
  memory : s.target.mem.wf = true

end Sys2Proof.Machine
end

