-- ==== Sys2Proof/Laws/Step.lean ====
section
/-! SUPPORT. What each shared operation of the edge can do, said once: the cases of `step`, what `exec` can answer, the
agents outside, and runs. -/

namespace Sys2Proof.Machine

/-! ## What `exec` answers -/

/-- Every command's edge answers a next state, made of the state by changing the block and adding to the record. -/
theorem exec_answers (i : Instr) (s : State) :
    ∃ b r, exec i s = .next { s with blk := b, board := { s.board with recorder := r } } ∧
      b.s1 = s.blk.s1 ∧ b.s2 = s.blk.s2 := by
  cases i <;>
    simp only [exec, execAcquire, execRelease, execDrive, execFloat, execSample, execRead, execSetsettle] <;>
    split <;> exact ⟨_, _, rfl, rfl, rfl⟩

/-- A command that `OWN` does not allow is rejected with `BADSTATE` (R71). -/
theorem exec_badState {i : Instr} {s : State} (h : stateOk i s.blk.own = false) :
    exec i s = .next (s.reject .badState) := by
  cases i <;>
    simp_all [stateOk, exec, execAcquire, execRelease, execDrive, execFloat, execSample, execRead]

/-- An accepted word's edge answers a next state, of the same shape as `exec`'s. -/
theorem dispatch_answers (w : Word32) (s : State) :
    ∃ b r, dispatch w s = .next { s with blk := b, board := { s.board with recorder := r } } ∧
      b.s1 = s.blk.s1 ∧ b.s2 = s.blk.s2 := by
  unfold dispatch
  split
  · exact ⟨_, _, rfl, rfl, rfl⟩
  · exact exec_answers _ s

/-! ## The cases of a step -/

/-- The edge of a reset (R128). -/
theorem step_of_rst {s : State} (h : s.host.pins.rst = true) :
    step s = .next (s.environment s.resetEdge) := by
  simp [step, State.clockEdge, State.blockEdge, h]

/-- An edge that accepts a command (R41). -/
theorem step_of_accepts {s t : State} (h : s.accepts = true)
    (ht : dispatch s.host.pins.cmdWord s.quiet = .next t) :
    step s = .next (s.environment t.syncShift) := by
  have hr : s.host.pins.rst = false := by
    simp only [State.accepts, State.cmdReady, Bool.and_eq_true, Bool.not_eq_true'] at h
    exact h.2.2
  simp [step, State.clockEdge, State.blockEdge, h, hr, ht]

/-- An edge with neither reset nor acceptance: the phase in progress goes on (R43). -/
theorem step_of_phase {s : State} (hr : s.host.pins.rst = false) (h : s.accepts = false) :
    step s = .next (s.environment s.quiet.phaseEdge.syncShift) := by
  simp [step, State.clockEdge, State.blockEdge, h, hr]

/-- A block in progress accepts nothing (R41). -/
theorem accepts_of_busy {s : State} (h : s.blk.ph ≠ .idle) : s.accepts = false := by
  simp [State.accepts, State.cmdReady, h]

/-- An edge inside a command (R43). -/
theorem step_of_busy {s : State} (hr : s.host.pins.rst = false) (h : s.blk.ph ≠ .idle) :
    step s = .next (s.environment s.quiet.phaseEdge.syncShift) :=
  step_of_phase hr (accepts_of_busy h)

/-- The three kinds of edge, with everything each does. -/
theorem step_cases {s t : State} (h : step s = .next t) :
    (s.host.pins.rst = true ∧ t = s.environment s.resetEdge) ∨
    (s.accepts = true ∧ s.host.pins.rst = false ∧ s.blk.ph = .idle ∧
      ∃ u, dispatch s.host.pins.cmdWord s.quiet = .next u ∧ t = s.environment u.syncShift) ∨
    (s.accepts = false ∧ s.host.pins.rst = false ∧ t = s.environment s.quiet.phaseEdge.syncShift) := by
  cases hr : s.host.pins.rst with
  | true => exact .inl ⟨rfl, by simpa [step_of_rst hr] using h.symm⟩
  | false =>
    cases ha : s.accepts with
    | true =>
      obtain ⟨b, r, hd, -⟩ := dispatch_answers s.host.pins.cmdWord s.quiet
      have hp : s.blk.ph = .idle := by
        simp only [State.accepts, State.cmdReady, Bool.and_eq_true, decide_eq_true_eq] at ha
        exact ha.2.1
      refine .inr (.inl ⟨rfl, rfl, hp, _, hd, ?_⟩)
      simpa [step_of_accepts ha hd] using h.symm
    | false => exact .inr (.inr ⟨rfl, rfl, by simpa [step_of_phase hr ha] using h.symm⟩)

/-! ## The phases -/

/-- A counting phase that is not at its end only counts (R89). -/
theorem countdown_of_pos {s : State} {f : State → State} (h : s.blk.cnt ≠ 0) :
    s.countdown f = { s with blk := { s.blk with cnt := s.blk.cnt - 1 } } := if_neg h

/-- A counting phase at its end performs its transition (R89). -/
theorem countdown_of_zero {s : State} {f : State → State} (h : s.blk.cnt = 0) : s.countdown f = f s := if_pos h

/-- A phase changes only the block and the record. -/
theorem phaseEdge_shape (s : State) :
    ∃ b r, s.phaseEdge = { s with blk := b, board := { s.board with recorder := r } } ∧
      b.s1 = s.blk.s1 ∧ b.s2 = s.blk.s2 := by
  unfold State.phaseEdge State.acqWaitEdge State.relHoldEdge State.relWaitEdge State.countdown
  split <;> first | exact ⟨_, _, rfl, rfl, rfl⟩ | (split <;> exact ⟨_, _, rfl, rfl, rfl⟩)

/-! ## The agents outside -/

/-- The target's next pin level comes from its plan, or follows `HOLD`. -/
theorem answer_mem (t : Target) (hold : Level) : (t.answer hold).mem = t.mem := by
  unfold Target.answer
  repeat' split
  all_goals rfl

/-- A device's own access time counts at its addresses (R96). -/
theorem accessTimeIn_own {d : Device} {a : Nat} (h : d.first ≤ a ∧ a ≤ d.last) (others : Nat) (rest : List Device) :
    accessTimeIn others (d :: rest) a = d.accessEdges := if_pos h

/-- A device has no say at the addresses of others (R96). -/
theorem accessTimeIn_other {d : Device} {a : Nat} (h : ¬(d.first ≤ a ∧ a ≤ d.last)) (others : Nat) (rest : List Device) :
    accessTimeIn others (d :: rest) a = accessTimeIn others rest a := if_neg h

/-- The target's processor changes no access time. -/
theorem answer_accessTime (t : Target) (hold : Level) (a : Nat) : (t.answer hold).accessTime a = t.accessTime a := by
  unfold Target.answer
  repeat' split
  all_goals rfl

/-- A capture started in an idle block counts every response as its own. -/
theorem captureAnswers_of_idle {s : State} (h : s.busy = false) (n : Nat) :
    s.captureAnswers n = responses n s.startCapture := by
  simp [State.captureAnswers, h]

/-- With no reset among the coming `n + 1` edges, none comes among the `n` after this one. -/
theorem noReset_following {h : HostPort} {n : Nat} {acc : Bool}
    (hf : ∀ p ∈ h.forced.take (n + 1), p.rst = false) :
    (h.following acc).pins.rst = false ∧ ∀ p ∈ (h.following acc).forced.take n, p.rst = false := by
  unfold HostPort.following
  split
  · rename_i p rest heq
    rw [heq, List.take_succ_cons] at hf
    exact ⟨hf p (List.mem_cons_self), fun q hq => hf q (List.mem_cons_of_mem _ hq)⟩
  · rename_i heq
    repeat' split
    all_goals simp [heq]

/-! ## Runs -/

theorem run_zero (s : State) : run 0 s = .next s := rfl

theorem run_succ_of_step {s t : State} {n : Nat} (h : step s = .next t) : run (n + 1) s = run n t := by
  simp only [run, Host.Core.run]
  rw [show Sys2Proof.core.step s = .next t from h]

/-- Two runs, one after the other. -/
theorem run_add {s t : State} {m n : Nat} (h : run m s = .next t) : run (m + n) s = run n t := by
  induction m generalizing s with
  | zero =>
    simp only [run, Host.Core.run] at h
    cases h
    simp
  | succ m ih =>
    cases hs : step s with
    | next u =>
      rw [run_succ_of_step hs] at h
      rw [Nat.succ_add, run_succ_of_step hs]
      exact ih h
    | fault r => exact nomatch r
    | refused r =>
      simp only [run, Host.Core.run] at h
      rw [show Sys2Proof.core.step s = .refused r from hs] at h
      cases h

end Sys2Proof.Machine
end

