-- ==== Sys2Proof/Laws/Run.lean ====
section
/-! SUPPORT. What carries from one edge to the next in a run: acceptance, the latch, the absence of a reset, the host's
port, the target's pin, the edge counter and the responses taken. -/

namespace Sys2Proof.Machine

/-- When a word is accepted (R41). -/
theorem accepts_iff {s : State} :
    s.accepts = true ↔ s.host.pins.cmdValid = true ∧ s.blk.ph = .idle ∧ s.host.pins.rst = false := by
  simp [State.accepts, State.cmdReady]

/-- An edge that leaves `ALE` as it was captures nothing (R45). -/
theorem latchAfter_of_ale {s t : State} (h : t.blk.lines.ale = s.blk.lines.ale) :
    latchAfter s t = t.board.latch := by
  unfold latchAfter Line.drives
  rw [h]
  cases s.blk.lines.ale.out <;> simp

/-- The resets not coming at this edge and the `n + 1` after it do not come at the next edge and the `n` after that. -/
theorem noReset_of_step {s t : State} {n : Nat} (hn : s.NoReset (n + 1)) (h : step s = .next t) : t.NoReset n := by
  rcases step_cases h with ⟨hr, rfl⟩ | ⟨-, -, -, u, hu, rfl⟩ | ⟨-, -, rfl⟩
  · simp [hn.1] at hr
  · obtain ⟨b, r, hd, -⟩ := dispatch_answers s.host.pins.cmdWord s.quiet
    rw [hd] at hu
    cases hu
    exact noReset_following hn.2
  · obtain ⟨b, r, hd, -⟩ := phaseEdge_shape s.quiet
    rw [hd]
    exact noReset_following hn.2

/-- Every edge has the target answer the `HOLD` it leaves (R46), and counts. -/
theorem target_of_step {s t : State} (h : step s = .next t) :
    t.target = s.target.answer t.blk.holdO ∧ t.board.edge = s.board.edge + 1 := by
  rcases step_cases h with ⟨-, rfl⟩ | ⟨-, -, -, u, hu, rfl⟩ | ⟨-, -, rfl⟩
  · exact ⟨rfl, rfl⟩
  · obtain ⟨b, r, hd, -⟩ := dispatch_answers s.host.pins.cmdWord s.quiet
    rw [hd] at hu
    cases hu
    exact ⟨rfl, rfl⟩
  · obtain ⟨b, r, hd, -⟩ := phaseEdge_shape s.quiet
    rw [hd]
    exact ⟨rfl, rfl⟩

/-- A target that never answers and plans one level keeps its pin at that level. -/
theorem answer_never {t : Target} {v : Level} (h0 : t.hlda = v) (hp : ∀ l ∈ t.plan, l = v) (hd : t.delay = none)
    (hold : Level) :
    (t.answer hold).hlda = v ∧ (∀ l ∈ (t.answer hold).plan, l = v) ∧ (t.answer hold).delay = none := by
  unfold Target.answer
  split
  · rename_i l rest he
    simp_all
  · split <;> simp_all

/-- Every edge leaves the host's port as the host follows what the edge accepted (R104). -/
theorem host_of_step {s t : State} (h : step s = .next t) : t.host = s.host.following s.accepts := by
  rcases step_cases h with ⟨-, rfl⟩ | ⟨-, -, -, u, hu, rfl⟩ | ⟨-, -, rfl⟩
  · rfl
  · obtain ⟨b, r, hd, -⟩ := dispatch_answers s.host.pins.cmdWord s.quiet
    rw [hd] at hu
    cases hu
    rfl
  · obtain ⟨b, r, hd, -⟩ := phaseEdge_shape s.quiet
    rw [hd]
    rfl

/-- With no forced levels and a word on the port, an edge that accepts it brings the next word of the queue. -/
theorem following_of_accepted {w v : Word32} {ws : List Word32} {r : Level} :
    HostPort.following ⟨⟨r, true, w⟩, [], v :: ws⟩ true = ⟨⟨false, true, v⟩, [], ws⟩ := rfl

/-- With no forced levels, an edge that does not accept the word on the port leaves it there. -/
theorem following_of_waiting {w : Word32} {ws : List Word32} {r : Level} :
    HostPort.following ⟨⟨r, true, w⟩, [], ws⟩ false = ⟨⟨false, true, w⟩, [], ws⟩ := rfl

/-! ## Responses -/

theorem responses_zero (s : State) : responses 0 s = [] := rfl

theorem responses_succ_of_step {s t : State} {n : Nat} (h : step s = .next t) :
    responses (n + 1) s = t.response ++ responses n t := by
  simp only [responses, h]

/-- The responses of two runs, one after the other. -/
theorem responses_add {s t : State} {m n : Nat} (h : run m s = .next t) :
    responses (m + n) s = responses m s ++ responses n t := by
  induction m generalizing s with
  | zero =>
    rw [run_zero] at h
    cases h
    simp [responses]
  | succ m ih =>
    cases hs : step s with
    | next u =>
      rw [run_succ_of_step hs] at h
      rw [Nat.succ_add, responses_succ_of_step hs, responses_succ_of_step hs, ih h, List.append_assoc]
    | fault r => exact nomatch r
    | refused r =>
      simp only [run, Host.Core.run] at h
      rw [show Sys2Proof.core.step s = .refused r from hs] at h
      cases h

/-- A byte of the artifact is what reached the sink there (R108, R109). -/
theorem artifactUpTo_getElem? {len k : Nat} (got : Nat → Option Byte) (h : k < len) :
    (artifactUpTo len got).1[k]? = some (artifactByte (got k)) := by
  unfold artifactUpTo
  rw [List.getElem?_map, List.getElem?_range h]
  rfl

end Sys2Proof.Machine
end

