-- ==== Sys2Proof/Certificates/Slice0/Obligations.lean ====
section
/-! DEFINITION. The statements for the provers, from the numbered rules of spec/. -/

open Sys2Proof Sys2Proof.Machine

/-! ## Encoding (30_encoding.md) -/

/-- Every well-formed command decodes from its own word, at every operand (R69). -/
def Obligations.DecodeOfEncode : Prop :=
  ∀ i : Instr, i.wellFormed = true → decode (encode i) = .ok i

/-- A legal word is the word of the one command it decodes to (R69, R70: "every word is either one legal command or
illegal"). -/
def Obligations.EncodeOfDecode : Prop :=
  ∀ (w : Word32) (i : Instr), decode w = .ok i → i.wellFormed = true ∧ encode i = w

/-- A word is illegal exactly when one of the five items of R70 holds, and then whatever state accepts it answers
`ILLEGAL` and changes nothing else but `ERR`. That the latch stays, whatever the target does meanwhile, is the model's
reading (log entry 11). -/
def Obligations.IllegalWords : Prop :=
  (∀ w : Word32,
    (∃ c, decode w = .error c) ↔
      (w.toNat / 2 ^ 28 = 0 ∨ 8 ≤ w.toNat / 2 ^ 28) ∨
      ((w.toNat / 2 ^ 28 = 1 ∨ w.toNat / 2 ^ 28 = 2 ∨ w.toNat / 2 ^ 28 = 4 ∨ w.toNat / 2 ^ 28 = 5) ∧
        w.toNat % 2 ^ 28 ≠ 0) ∨
      ((w.toNat / 2 ^ 28 = 3 ∨ w.toNat / 2 ^ 28 = 6) ∧ w.toNat / 2 ^ 20 % 2 ^ 8 ≠ 0) ∨
      (w.toNat / 2 ^ 28 = 7 ∧ w.toNat / 2 ^ 16 % 2 ^ 12 ≠ 0) ∨
      (w.toNat / 2 ^ 28 = 7 ∧ w.toNat % 2 ^ 16 = 0)) ∧
  ∀ (s : State) (c : IllegalCause), s.accepts = true → decode s.host.pins.cmdWord = .error c →
    ∃ t, step s = .next t ∧
      t.blk = { s.idleBlock with err := true, rspValid := true, rspStatus := .illegal, rspData := 0 } ∧
      t.board.latch = s.board.latch ∧ t.board.recorder = s.board.recorder

/-- Words written out from the encoding tables of R67 and R69 decode to the commands they stand for. -/
def Obligations.WrittenOutWordsDecode : Prop :=
  decode 0x10000000#32 = .ok .acquire ∧
  decode 0x20000000#32 = .ok .release ∧
  decode 0x300A5C3F#32 = .ok (.drive 0xA5C3F) ∧
  decode 0x40000000#32 = .ok .float ∧
  decode 0x50000000#32 = .ok .sample ∧
  decode 0x60012345#32 = .ok (.read 0x12345) ∧
  decode 0x70000003#32 = .ok (.setsettle 3) ∧
  decode 0x30100000#32 = .error .z8 ∧
  decode 0x70000000#32 = .error .zeroVal

/-- Every word the assembler makes of a line is a legal word (R72, R73). -/
def Obligations.AssembledWordsAreLegal : Prop :=
  ∀ (line : List Char) (ws : List Word32), assembleWords line = .ok ws →
    ∀ w ∈ ws, ∃ i, decode w = .ok i ∧ i.wellFormed = true

/-- `READN a, n` reads the `n` addresses from `a` on, ascending, each once (R73). -/
def Obligations.ReadnAddressesAscend : Prop :=
  ∀ a n : Nat, 1 ≤ n → a + n - 1 ≤ 0xFFFFF →
    (readN a n).length = n ∧
    ∀ k < n, ∃ x : Addr, (readN a n)[k]? = some (.read x) ∧ x.toNat = a + k

/-! ## The edge (R20, R41, R71) -/

/-- An edge that accepts a word holding the command `i` runs `exec i` on the state with `rsp_valid` lowered (R42), then
shifts the synchroniser (R30) and lets the board and the agents outside move (R45, R46, R104); and the command it
runs is well formed. -/
def Obligations.StepRunsDecodedCommand : Prop :=
  ∀ (s t : State) (i : Instr), s.Accepts i → exec i s.quiet = .next t →
    i.wellFormed = true ∧ step s = .next (s.environment t.syncShift)

/-- Every edge has a next state: nothing faults and nothing is refused (R112, R117). -/
def Obligations.EveryEdgeAnswers : Prop := ∀ s : State, ∃ t, step s = .next t

/-- `cmd_ready` is 1 exactly in `IDLE` with `rst = 0`; a word is accepted exactly when it is presented and the block is
ready, and it is then the word dispatched; an edge that is not ready neither accepts nor stores the word on
the port: block, board and target move as they would with any other word, or none (R41). -/
def Obligations.WordIgnoredWhenNotReady : Prop :=
  (∀ s : State, s.cmdReady = true ↔ s.blk.ph = .idle ∧ s.host.pins.rst = false) ∧
  (∀ s t : State, s.host.pins.cmdValid = true → s.cmdReady = true →
    dispatch s.host.pins.cmdWord s.quiet = .next t → step s = .next (s.environment t.syncShift)) ∧
  ∀ (s t t' : State) (v : Bool) (w : Word32), s.cmdReady = false → step s = .next t →
    step { s with host := { s.host with pins := { s.host.pins with cmdValid := v, cmdWord := w } } } = .next t' →
    t'.blk = t.blk ∧ t'.board = t.board ∧ t'.target = t.target

/-- With no reset and no word on the port the idle block only lowers `rsp_valid` and shifts the synchroniser (R131: it
"starts no command by itself"); that the latch stays, whatever the target does meanwhile, is log entry 11. -/
def Obligations.IdleBlockStartsNothing : Prop :=
  ∀ s : State, s.blk.ph = .idle → s.host.pins.rst = false → s.host.pins.cmdValid = false →
    ∃ t, step s = .next t ∧ t.blk = s.idleBlock ∧ t.board.latch = s.board.latch ∧
      t.board.recorder = s.board.recorder

/-! ## Reset (70_reset_and_hazards.md) -/

/-- The state after reset is the table of R48, and its `STATUS` is `0x00`. -/
def Obligations.ResetStateIsTheTable : Prop :=
  State.reset.blk.own = .released ∧ State.reset.blk.holdO = false ∧ State.reset.blk.lines.allFloating ∧
  (∀ i : Fin 20, State.reset.blk.lines.out (.ad i) = false) ∧
  State.reset.blk.lines.out .ale = false ∧ State.reset.blk.lines.out .rdN = true ∧
  State.reset.blk.lines.out .denN = true ∧ State.reset.blk.lines.out .wrN = true ∧
  State.reset.blk.lines.out .ioM = false ∧ State.reset.blk.lines.out .dtR = false ∧
  State.reset.blk.s1 = false ∧ State.reset.blk.s2 = false ∧ State.reset.blk.settle = 1 ∧
  State.reset.blk.data = 0 ∧ State.reset.blk.err = false ∧ State.reset.blk.ph = .idle ∧
  State.reset.blk.cnt = 0 ∧ State.reset.blk.opnd = 0 ∧ State.reset.blk.rspValid = false ∧
  State.reset.blk.rspStatus = .ok ∧ State.reset.blk.rspData = 0 ∧ State.reset.status = 0

/-- An edge with `rst = 1`, in whatever phase and whatever stands on the port, leaves every piece of the block's state at
its value of R48, and `cmd_ready` is 0 at it (R128, R129, R120). `LATCH` stays: where `ALE` was high, that floating it is no
falling edge for the latch is the model's reading (log entry 11). -/
def Obligations.ResetEdgeSetsEveryRegister : Prop :=
  ∀ s : State, s.host.pins.rst = true →
    s.cmdReady = false ∧
    ∃ t, step s = .next t ∧ t.board.latch = s.board.latch ∧ t.params = s.params ∧
      t.blk.lines.allFloating ∧ t.blk.lines.ad.out = 0 ∧
      t.blk.lines.out .ale = false ∧ t.blk.lines.out .rdN = true ∧ t.blk.lines.out .denN = true ∧
      t.blk.lines.out .wrN = true ∧ t.blk.lines.out .ioM = false ∧ t.blk.lines.out .dtR = false ∧
      t.blk = { lines := t.blk.lines, holdO := false, s1 := false, s2 := false, own := .released, settle := 1,
                data := 0, err := false, ph := .idle, cnt := 0, opnd := 0, rspValid := false, rspStatus := .ok,
                rspData := 0 }

/-! ## The invariant -/

/-- The invariant holds right after reset. -/
def Obligations.ResetMeetsInvariant : Prop := State.reset.Inv

/-- Every edge keeps the invariant (R34, R35, R29, R43 and the other rules its clauses cite). -/
def Obligations.EdgeKeepsInvariant : Prop := ∀ s t : State, s.Inv → step s = .next t → t.Inv

/-- After every edge, while the bus is not held, or while `RELEASE` runs, every switchable line floats (R34). -/
def Obligations.LinesFloatUnlessHeld : Prop :=
  ∀ s t : State, s.Inv → step s = .next t →
    (t.blk.own ≠ .held → t.blk.lines.allFloating) ∧
    (s.Accepts .release → s.blk.own = .held → t.blk.lines.allFloating) ∧
    (t.blk.ph = .relHold ∨ t.blk.ph = .relWait → t.blk.lines.allFloating)

/-- After every edge `WR_n` is not asserted, `IO_M` is at memory and `DT_R` at receive, so while they are driven they
carry their idle levels (R29). -/
def Obligations.NeverWritesNorSelectsIo : Prop :=
  ∀ s t : State, s.Inv → step s = .next t →
    t.blk.lines.out .wrN = true ∧ t.blk.lines.out .ioM = false ∧ t.blk.lines.out .dtR = false

/-- The six control lines have one direction; they become `Driven`, at their idle levels, exactly at the edge where `OWN`
becomes `Held`, and `Floating` exactly at the edge where `RELEASE` is accepted and at reset (R35). -/
def Obligations.ControlLinesMoveTogether : Prop :=
  ∀ s t : State, s.Inv → step s = .next t →
    (∀ x ∈ [SwLine.denN, .dtR, .ioM, .rdN, .wrN], t.blk.lines.dir x = t.blk.lines.dir .ale) ∧
    (s.blk.lines.dir .ale = .floating →
      (t.blk.lines.dir .ale = .driven ↔ s.blk.own ≠ .held ∧ t.blk.own = .held)) ∧
    (s.blk.own ≠ .held → t.blk.own = .held →
      t.blk.lines.dir .ale = .driven ∧
      t.blk.lines.out .ale = false ∧ t.blk.lines.out .rdN = true ∧ t.blk.lines.out .denN = true ∧
      t.blk.lines.out .wrN = true ∧ t.blk.lines.out .ioM = false ∧ t.blk.lines.out .dtR = false) ∧
    (s.blk.lines.dir .ale = .driven →
      (t.blk.lines.dir .ale = .floating ↔ s.host.pins.rst = true ∨ s.Accepts .release))

/-! ## Ownership (R33, R81) -/

/-- `OWN` changes only by the four transitions of R33: an accepted `ACQUIRE`, the acknowledgement seen while it waits, the
withdrawal seen while `RELEASE` waits with `HOLD` deasserted, and reset. -/
def Obligations.OwnershipTransitions : Prop :=
  ∀ s t : State, s.Inv → step s = .next t → t.blk.own ≠ s.blk.own →
    (s.host.pins.rst = true ∧ t.blk.own = .released) ∨
    (s.blk.own = .released ∧ t.blk.own = .requested ∧ s.Accepts .acquire) ∨
    (s.blk.own = .requested ∧ t.blk.own = .held ∧ s.blk.ph = .acqWait ∧ s.blk.s2 = true) ∨
    (s.blk.own = .held ∧ t.blk.own = .released ∧ s.blk.ph = .relWait ∧ s.blk.s2 = false ∧ s.blk.holdO = false)

/-! ## Registers -/

/-- The fields of `STATUS` (R38, R44), in every state, and its value after reset. -/
def Obligations.StatusFields : Prop :=
  (∀ s : State,
    s.status.extractLsb' 0 2 = s.blk.own.code ∧
    (s.status.getLsbD 2 = true ↔ s.blk.ph ≠ .idle) ∧
    s.status.getLsbD 3 = s.blk.err ∧
    s.status.getLsbD 4 = s.blk.holdO ∧
    s.status.getLsbD 5 = s.blk.s2 ∧
    s.status.extractLsb' 6 2 = 0) ∧
  Ownership.released.code = 0b00#2 ∧ Ownership.requested.code = 0b01#2 ∧ Ownership.held.code = 0b10#2 ∧
  State.reset.status = 0

/-- At every edge without reset `s1` takes the pin and `s2` takes `s1`, and what the block decides at that edge does not
depend on the pin (R30). -/
def Obligations.SynchroniserShifts : Prop :=
  ∀ (s t t' : State) (h : Level), s.host.pins.rst = false → step s = .next t →
    step { s with target := { s.target with hlda := h } } = .next t' →
    t.blk.s1 = s.target.hlda ∧ t.blk.s2 = s.blk.s1 ∧
    t'.blk = { t.blk with s1 := h, data := t'.blk.data, rspData := t'.blk.rspData }

/-- `ERR` is set exactly by a rejection, cleared only by reset, and does not change what the block does (R39). -/
def Obligations.ErrIsStickyAndOnlyRecords : Prop :=
  ∀ s t t' : State, step s = .next t →
    (s.host.pins.rst = false → (t.blk.err = true ↔ s.blk.err = true ∨ s.rejects = true)) ∧
    (s.host.pins.rst = true → t.blk.err = false) ∧
    (step { s with blk := { s.blk with err := !s.blk.err } } = .next t' →
      t' = { t with blk := { t.blk with err := t'.blk.err } })

/-- `SETTLE` changes only by an accepted `SETSETTLE` and by reset (R36: "Only `SETSETTLE` writes it"). -/
def Obligations.SettleWrittenOnlyBySetsettle : Prop :=
  ∀ s t : State, step s = .next t → t.blk.settle ≠ s.blk.settle →
    s.host.pins.rst = true ∨ s.Accepts (.setsettle t.blk.settle)

/-- `DATA` changes only at the sample of an accepted `SAMPLE`, at T7 of a `READ`, and by reset (R37). -/
def Obligations.DataWrittenOnlyBySamples : Prop :=
  ∀ s t : State, step s = .next t → t.blk.data ≠ s.blk.data →
    s.host.pins.rst = true ∨ (s.Accepts .sample ∧ s.blk.own = .held) ∨ (s.blk.ph = .rcSettle ∧ s.blk.cnt = 0)

/-- A response is produced exactly at the edge where an accepted command completes, and its status and data stay until the
next one (R42). -/
def Obligations.ResponseAtCompletion : Prop :=
  ∀ s t : State, s.host.pins.rst = false → step s = .next t →
    (t.blk.rspValid = true ↔ (s.accepts = true ∨ s.blk.ph ≠ .idle) ∧ t.blk.ph = .idle) ∧
    (t.blk.rspValid = false → t.blk.rspStatus = s.blk.rspStatus ∧ t.blk.rspData = s.blk.rspData)

/-! ## Rejections (60_exceptions.md) -/

/-- The whole effect of a rejection, `ILLEGAL` or `BADSTATE`: the response, `ERR`, and nothing else; the phase stays
`IDLE` (R114). That the latch and the target's memory stay, whatever the target does meanwhile, is the model's reading
(log entries 11 and 28). -/
def Obligations.RejectionHasNoOtherEffect : Prop :=
  ∀ (s : State) (c : RspStatus), s.accepts = true → rejectCode s.host.pins.cmdWord s.blk.own = some c →
    ∃ t, step s = .next t ∧ t.blk.ph = .idle ∧
      t.blk = { s.idleBlock with err := true, rspValid := true, rspStatus := c, rspData := 0 } ∧
      t.board.latch = s.board.latch ∧ t.board.recorder = s.board.recorder ∧
      (∀ a, t.target.mem.read a = s.target.mem.read a)

/-- A word both illegal and in the wrong state answers `ILLEGAL` (R116). -/
def Obligations.IllegalComesBeforeBadState : Prop :=
  ∀ (s : State) (c : IllegalCause), s.accepts = true → decode s.host.pins.cmdWord = .error c →
    ∃ t, step s = .next t ∧ t.blk.rspValid = true ∧ t.blk.rspStatus = .illegal

/-- Each command in an ownership state that R71 does not allow it answers `BADSTATE`, and `SETSETTLE` never does
(R115, R102). -/
def Obligations.BadStateRejections : Prop :=
  ∀ (s : State) (a : Addr),
    (s.blk.own ≠ .released → exec .acquire s = .next (s.reject .badState)) ∧
    (s.blk.own ≠ .held →
      exec .release s = .next (s.reject .badState) ∧ exec (.drive a) s = .next (s.reject .badState) ∧
      exec .float s = .next (s.reject .badState) ∧ exec .sample s = .next (s.reject .badState) ∧
      exec (.read a) s = .next (s.reject .badState)) ∧
    (∀ n t, exec (.setsettle n) s = .next t → t.blk.rspStatus ≠ .badState) ∧
    (s.reject .badState).blk =
      { s.blk with err := true, rspValid := true, rspStatus := .badState, rspData := 0 } ∧
    (s.reject .badState).board = s.board

/-- An error status is answered only at the edge that rejects a word; a command that passes decoding and the state test
never fails (R112). -/
def Obligations.PerformedCommandsNeverFail : Prop :=
  ∀ s t : State, s.host.pins.rst = false → step s = .next t → t.blk.rspValid = true → t.blk.rspStatus ≠ .ok →
    s.accepts = true ∧ rejectCode s.host.pins.cmdWord s.blk.own = some t.blk.rspStatus

/-! ## ACQUIRE and RELEASE (40_arbitration.md) -/

/-- `ACQUIRE` accepted while `Released` asserts `HOLD`, requests the bus and waits; nothing else changes (R75). -/
def Obligations.AcquireRequestsBus : Prop :=
  ∀ s : State, s.blk.own = .released →
    exec .acquire s = .next
      { s with
        blk := { s.blk with holdO := true, own := .requested, ph := .acqWait }
        board := { s.board with recorder := (s.board.edge, .hold true) :: s.board.recorder } }

/-- At an edge of `ACQ_WAIT`: with `Sync(HLDA) = 1` the six control lines become driven at their idle levels, the bus is
held and the response is `(OK, 0x00)`; with `Sync(HLDA) = 0` the block stays as it is (R75). That the target's
memory stays meanwhile is the model's choice (log entry 28). -/
def Obligations.AcquireWaitEdge : Prop :=
  ∀ s : State, s.blk.ph = .acqWait → s.host.pins.rst = false →
    ∃ t, step s = .next t ∧ t.params = s.params ∧ (∀ a, t.target.mem.read a = s.target.mem.read a) ∧
      (s.blk.s2 = true →
        t.blk = { s.idleBlock with
          lines := { ad := s.blk.lines.ad, ale := ⟨.driven, false⟩, denN := ⟨.driven, true⟩,
                     dtR := ⟨.driven, false⟩, ioM := ⟨.driven, false⟩, rdN := ⟨.driven, true⟩,
                     wrN := ⟨.driven, true⟩ }
          own := .held, ph := .idle, rspValid := true, rspStatus := .ok, rspData := 0 }) ∧
      (s.blk.s2 = false → t.blk = s.idleBlock)

/-- An `ACQUIRE` whose acknowledgement never comes, whatever the target is, waits for ever: after any number of edges it
is still in `ACQ_WAIT`, requesting, with `HOLD` asserted, no response and no command accepted (R76). -/
def Obligations.AcquireBlocksForever : Prop :=
  ∀ (n : Nat) (s : State), s.blk.ph = .acqWait → s.blk.own = .requested → s.blk.holdO = true →
    s.blk.rspValid = false → s.blk.s1 = false → s.blk.s2 = false → s.PinStays n false → s.NoReset n →
    ∃ t, run n s = .next t ∧ t.blk.ph = .acqWait ∧ t.blk.own = .requested ∧ t.blk.holdO = true ∧
      t.blk.rspValid = false ∧ t.cmdReady = false

/-- With a target that answers `k` edges later than at once, an `ACQUIRE` waits at each of the `k + 3` edges from the
accepting one on, and completes with `(OK, 0x00)` at the edge `k + 3` after it (R138, ARB-1, ARB-4). The target's delay
is the model's agent (log entry 4). -/
def Obligations.AcquireCompletesAfterAnswer : Prop :=
  ∀ (k : Nat) (s : State), s.Accepts .acquire → s.blk.own = .released → s.blk.s1 = false → s.blk.s2 = false →
    s.target.hlda = false → s.target.plan = [] → s.target.delay = some k → s.target.owed = 0 → s.NoReset (k + 3) →
    (∀ j, 1 ≤ j → j ≤ k + 3 → ∃ u, run j s = .next u ∧ u.blk.ph = .acqWait ∧ u.blk.rspValid = false) ∧
    ∃ t, run (k + 4) s = .next t ∧ t.blk.own = .held ∧ t.blk.ph = .idle ∧ t.blk.holdO = true ∧
      t.blk.rspValid = true ∧ t.blk.rspStatus = .ok ∧ t.blk.rspData = 0

/-- `RELEASE` accepted while `Held` floats all 26 switchable lines and keeps their levels; `HOLD` stays (R78). -/
def Obligations.ReleaseFloatsEveryLine : Prop :=
  ∀ s : State, s.blk.own = .held →
    ∃ t, exec .release s = .next t ∧ t.blk.lines.allFloating ∧
      (∀ x, t.blk.lines.out x = s.blk.lines.out x) ∧
      t.blk = { s.blk with lines := t.blk.lines, ph := .relHold } ∧
      t.params = s.params ∧ t.host = s.host ∧ t.target = s.target ∧ t.board.latch = s.board.latch ∧
      t.board.recorder = (s.board.edge, .controlFloated) :: (s.board.edge, .adFloated) :: s.board.recorder

/-- The later edges of `RELEASE` (R78): in `REL_HOLD` `HOLD` falls; in `REL_WAIT` the bus is released, with the response
`(OK, 0x00)`, when `Sync(HLDA) = 0`, and the block stays as it is until then. -/
def Obligations.ReleaseWaitEdges : Prop :=
  ∀ s : State, s.host.pins.rst = false →
    (s.blk.ph = .relHold → ∃ t, step s = .next t ∧ t.blk = { s.idleBlock with holdO := false, ph := .relWait }) ∧
    (s.blk.ph = .relWait → s.blk.s2 = true → ∃ t, step s = .next t ∧ t.blk = s.idleBlock) ∧
    (s.blk.ph = .relWait → s.blk.s2 = false →
      ∃ t, step s = .next t ∧
        t.blk = { s.idleBlock with own := .released, ph := .idle, rspValid := true, rspStatus := .ok, rspData := 0 })

/-- When `HOLD` falls without reset, every switchable line was already floating before that edge (R79). -/
def Obligations.LinesFloatBeforeHoldFalls : Prop :=
  ∀ s t : State, s.Inv → step s = .next t → s.host.pins.rst = false → s.blk.holdO = true → t.blk.holdO = false →
    s.blk.lines.allFloating ∧ t.blk.lines.allFloating

/-- A `RELEASE` whose acknowledgement is never withdrawn, whatever the target is, waits for ever in `REL_WAIT`, held, with
`HOLD` deasserted, every line floating and no response (R80). -/
def Obligations.ReleaseBlocksForever : Prop :=
  ∀ (n : Nat) (s : State), s.blk.ph = .relWait → s.blk.own = .held → s.blk.holdO = false →
    s.blk.lines.allFloating → s.blk.rspValid = false → s.blk.s1 = true → s.blk.s2 = true → s.PinStays n true →
    s.NoReset n →
    ∃ t, run n s = .next t ∧ t.blk.ph = .relWait ∧ t.blk.own = .held ∧ t.blk.holdO = false ∧
      t.blk.lines.allFloating ∧ t.blk.rspValid = false

/-- With a target that answers `k` edges later than at once, a `RELEASE` completes with `(OK, 0x00)` at the edge `k + 4`
after the accepting one, and at no edge before it (R138, ARB-3, ARB-4). The target's delay is the model's agent (log
entry 4). -/
def Obligations.ReleaseCompletesAfterWithdrawal : Prop :=
  ∀ (k : Nat) (s : State), s.Accepts .release → s.blk.own = .held → s.blk.holdO = true → s.blk.s1 = true →
    s.blk.s2 = true → s.target.hlda = true → s.target.plan = [] → s.target.delay = some k → s.target.owed = 0 →
    s.NoReset (k + 4) →
    (∀ j, 1 ≤ j → j ≤ k + 4 → ∃ u, run j s = .next u ∧ u.blk.own = .held ∧ u.blk.rspValid = false) ∧
    ∃ t, run (k + 5) s = .next t ∧ t.blk.own = .released ∧ t.blk.ph = .idle ∧ t.blk.holdO = false ∧
      t.blk.lines.allFloating ∧ t.blk.rspValid = true ∧ t.blk.rspStatus = .ok ∧ t.blk.rspData = 0

/-! ## DRIVE, FLOAT, SAMPLE, SETSETTLE (41, 42 and 44) -/

/-- `DRIVE a` while `Held` drives bit `i` of `a` onto `AD[i]` for all 20 lines and answers `(OK, 0x00)`; nothing else
changes (R82). -/
def Obligations.DrivePutsAddressOnLines : Prop :=
  ∀ (s : State) (a : Addr), s.blk.own = .held →
    exec (.drive a) s = .next
      { s with
        blk := { s.blk with
          lines := { s.blk.lines with ad := ⟨0xFFFFF, a⟩ }
          rspValid := true, rspStatus := .ok, rspData := 0 }
        board := { s.board with recorder := (s.board.edge, .adDriven a) :: s.board.recorder } }

/-- `FLOAT` while `Held` floats all 20 address lines, keeps their levels and answers `(OK, 0x00)`; nothing else changes
(R83). -/
def Obligations.FloatReleasesAddressLines : Prop :=
  ∀ s : State, s.blk.own = .held →
    exec .float s = .next
      { s with
        blk := { s.blk with
          lines := { s.blk.lines with ad := ⟨0, s.blk.lines.ad.out⟩ }
          rspValid := true, rspStatus := .ok, rspData := 0 }
        board := { s.board with recorder := (s.board.edge, .adFloated) :: s.board.recorder } }

/-- `DRIVE` and `FLOAT` answer at their edge, and answer only `OK` or the rejection of R114 (R84). -/
def Obligations.DriveAndFloatCannotFail : Prop :=
  ∀ (s t : State) (a : Addr), exec (.drive a) s = .next t ∨ exec .float s = .next t →
    t.blk.rspValid = true ∧ t.blk.rspData = 0 ∧
    ((s.blk.own = .held ∧ t.blk.rspStatus = .ok) ∨ (s.blk.own ≠ .held ∧ t = s.reject .badState))

/-- `SAMPLE` while `Held` writes the byte on the data lines to `DATA` and answers it with `OK`; no line changes (R86). -/
def Obligations.SampleReadsDataLines : Prop :=
  ∀ s : State, s.blk.own = .held →
    exec .sample s = .next
      { s with
        blk := { s.blk with data := s.samplePins, rspValid := true, rspStatus := .ok, rspData := s.samplePins }
        board := { s.board with recorder := (s.board.edge, .adRead) :: s.board.recorder } }

/-- A standalone `SAMPLE`, in the idle block of any state that meets the invariant, reads any value: the free value of its
edge, whatever the target's memory holds (R86, R31). The form of the free value is log entry 8. -/
def Obligations.StandaloneSampleIsAnyValue : Prop :=
  ∀ s : State, s.Inv → s.blk.ph = .idle → s.blk.own = .held →
    ∃ t, exec .sample s = .next t ∧ t.blk.data = Config.freeByte s.board.edge ∧
      t.blk.rspData = Config.freeByte s.board.edge

/-- Bit `i` of a sample is the level of line `AD[i]`: the device's where the block floats the line and a device drives it,
any value elsewhere; and `DRIVE a` puts bit `i` of `a` on `AD[i]` (R54, R31). The form of the free value, `Config.freeByte`
of the edge, is the model's choice (log entry 8), and so is what a device drives when (log entries 5 to 7). -/
def Obligations.SampleAndAddressBitOrder : Prop :=
  (∀ (s : State) (i : Nat), i < 8 →
    s.samplePins.getLsbD i =
      if s.blk.lines.ad.driven.getLsbD i then (Config.freeByte s.board.edge).getLsbD i
      else
        match s.deviceByte with
        | some b => b.getLsbD i
        | none => (Config.freeByte s.board.edge).getLsbD i) ∧
  ∀ (s : State) (a : Addr) (i : Fin 20), s.blk.own = .held →
    ∃ t, exec (.drive a) s = .next t ∧ t.blk.lines.dir (.ad i) = .driven ∧ t.blk.lines.out (.ad i) = a.getLsbD i

/-- `SETSETTLE n` with `n` not 0 writes `n` to `SETTLE` in any ownership state and answers `(OK, 0x00)`; nothing else
changes (R102). -/
def Obligations.SetsettleWritesSettle : Prop :=
  ∀ (s : State) (n : Micros), n ≠ 0 →
    exec (.setsettle n) s = .next
      { s with blk := { s.blk with settle := n, rspValid := true, rspStatus := .ok, rspData := 0 } }

/-! ## READ (43_read_cycle.md) -/

/-- `READ a` accepted while `Held` stores the operand, drives the address (T1) and enters the cycle; nothing else changes
(R88, R90). -/
def Obligations.ReadStartsCycle : Prop :=
  ∀ (s : State) (a : Addr), s.blk.own = .held →
    exec (.read a) s = .next
      { s with
        blk := { s.blk with
          lines := { s.blk.lines with ad := ⟨0xFFFFF, a⟩ }
          opnd := a, ph := .rcAleHi, cnt := s.params.phaseCycles - 1 }
        board := { s.board with recorder := (s.board.edge, .adDriven a) :: s.board.recorder } }

/-- The counter mechanics and the transitions T2 to T9 (R89): in each phase of the cycle an edge with `CNT` not 0 only
counts, and the edge with `CNT = 0` performs the phase's transition, moves on and loads `CNT`. -/
def Obligations.ReadPhaseEdges : Prop :=
  ∀ s : State, s.host.pins.rst = false → s.blk.ph.reading = true →
    ∃ t, step s = .next t ∧
      (s.blk.cnt ≠ 0 → t.blk = { s.idleBlock with cnt := s.blk.cnt - 1 }) ∧
      (s.blk.cnt = 0 →
        (s.blk.ph = .rcAleHi → t.blk = { s.idleBlock with
          lines := { s.blk.lines with ale := { s.blk.lines.ale with out := true } }
          ph := .rcAleLo, cnt := s.params.phaseCycles - 1 }) ∧
        (s.blk.ph = .rcAleLo → t.blk = { s.idleBlock with
          lines := { s.blk.lines with ale := { s.blk.lines.ale with out := false } }
          ph := .rcFloat, cnt := s.params.phaseCycles - 1 }) ∧
        (s.blk.ph = .rcFloat → t.blk = { s.idleBlock with
          lines := { s.blk.lines with ad := ⟨s.blk.lines.ad.driven &&& 0xFFF00, s.blk.lines.ad.out⟩ }
          ph := .rcRdOn, cnt := s.params.phaseCycles - 1 }) ∧
        (s.blk.ph = .rcRdOn → t.blk = { s.idleBlock with
          lines := { s.blk.lines with rdN := { s.blk.lines.rdN with out := false } }
          ph := .rcDenOn, cnt := s.params.phaseCycles - 1 }) ∧
        (s.blk.ph = .rcDenOn → t.blk = { s.idleBlock with
          lines := { s.blk.lines with denN := { s.blk.lines.denN with out := false } }
          ph := .rcSettle, cnt := s.blk.settle.toNat * s.params.ticksPerUs - 1 }) ∧
        (s.blk.ph = .rcSettle → t.blk = { s.idleBlock with
          data := s.samplePins, ph := .rcDenOff, cnt := s.params.phaseCycles - 1 }) ∧
        (s.blk.ph = .rcDenOff → t.blk = { s.idleBlock with
          lines := { s.blk.lines with denN := { s.blk.lines.denN with out := true } }
          ph := .rcRdOff, cnt := s.params.phaseCycles - 1 }) ∧
        (s.blk.ph = .rcRdOff → t.blk = { s.idleBlock with
          lines := { s.blk.lines with rdN := { s.blk.lines.rdN with out := true } }
          ph := .idle, rspValid := true, rspStatus := .ok, rspData := s.blk.data }))

/-- The latch captures the pin levels of `AD[19:0]`, all driven then, at the falling edge of `ALE`, and holds its value at
every other edge (R45). That an edge at which a reset floats a high `ALE`, and edges at which the target's own processor
may strobe its latch (R46), capture nothing is the model's reading (log entry 11). -/
def Obligations.LatchCapturesAtStrobeFall : Prop :=
  ∀ s t : State, s.Inv → step s = .next t →
    (s.host.pins.rst = false ∧ s.blk.ph = .rcAleLo ∧ s.blk.cnt = 0 →
      s.blk.lines.ad.driven = 0xFFFFF ∧ t.board.latch = s.blk.lines.ad.out) ∧
    (¬(s.host.pins.rst = false ∧ s.blk.ph = .rcAleLo ∧ s.blk.cnt = 0) → t.board.latch = s.board.latch)

/-- Through a `READ`: from T1 through the falling edge of `ALE` all 20 lines are driven with the operand's bits; after that
edge the latch holds the operand; and `AD[19:8]` stay driven with its high bits until the end (R52). -/
def Obligations.DeviceSeesTheOperand : Prop :=
  ∀ s t : State, s.Inv → step s = .next t →
    (t.blk.ph = .rcAleHi ∨ t.blk.ph = .rcAleLo ∨ t.blk.ph = .rcFloat →
      ∀ i : Fin 20, t.blk.lines.dir (.ad i) = .driven ∧ t.blk.lines.out (.ad i) = t.blk.opnd.getLsbD i) ∧
    (t.blk.ph.latched = true → t.board.latch = t.blk.opnd) ∧
    (t.blk.ph.reading = true →
      ∀ i : Fin 20, 8 ≤ i.val →
        t.blk.lines.dir (.ad i) = .driven ∧ t.blk.lines.out (.ad i) = t.blk.opnd.getLsbD i)

/-- At T7 both enables are asserted, memory and receive are selected, `AD[7:0]` float, and `DATA` takes `Sample()` of that
one edge (R95). -/
def Obligations.SamplePointPrecondition : Prop :=
  ∀ s : State, s.Inv → s.host.pins.rst = false → s.blk.ph = .rcSettle → s.blk.cnt = 0 →
    s.blk.lines.rdN = ⟨.driven, false⟩ ∧ s.blk.lines.denN = ⟨.driven, false⟩ ∧
    s.blk.lines.ioM = ⟨.driven, false⟩ ∧ s.blk.lines.dtR = ⟨.driven, false⟩ ∧
    (∀ i : Fin 20, i.val < 8 → s.blk.lines.dir (.ad i) = .floating) ∧
    ∃ t, step s = .next t ∧ t.blk.data = s.samplePins

/-- `READ a` from any held state that meets the invariant, with no reset, completes after exactly
`7 * PHASE_CYCLES + SETTLE * TICKS_PER_US` edges with status `OK`, answers at none before, and leaves the state of R100,
with `DATA` the sample taken at T7 (R100, R101). -/
def Obligations.ReadCompletesOnTime : Prop :=
  ∀ (s : State) (a : Addr), s.Inv → s.Accepts (.read a) → s.blk.own = .held → s.NoReset s.readEdges →
    (∀ j, 1 ≤ j → j ≤ s.readEdges → ∃ u, run j s = .next u ∧ u.blk.ph ≠ .idle ∧ u.blk.rspValid = false) ∧
    ∃ t, run (s.readEdges + 1) s = .next t ∧
      t.blk.lines = { ad := ⟨0xFFF00, a⟩, ale := ⟨.driven, false⟩, denN := ⟨.driven, true⟩,
                      dtR := ⟨.driven, false⟩, ioM := ⟨.driven, false⟩, rdN := ⟨.driven, true⟩,
                      wrN := ⟨.driven, true⟩ } ∧
      t.board.latch = a ∧ t.blk.opnd = a ∧ t.blk.ph = .idle ∧ t.blk.own = .held ∧
      t.blk.rspValid = true ∧ t.blk.rspStatus = .ok ∧ t.blk.rspData = t.blk.data ∧
      (∃ u, run (5 * s.params.phaseCycles + s.settleEdges) s = .next u ∧ t.blk.data = u.samplePins) ∧
      t.blk.settle = s.blk.settle ∧ t.blk.err = s.blk.err ∧ t.blk.holdO = s.blk.holdO ∧ t.params = s.params ∧
      (∀ x, t.target.mem.read x = s.target.mem.read x)

/-- The trace of one `READ a`: exactly the nine events of R99, in that order, each at its edge of R88 and so at strictly
increasing edges, with one `ALE` pulse and one assertion of `RD_n` (R99, R98). The recorder's form is the model's (log entry
12). -/
def Obligations.ReadTraceIsTheNineEvents : Prop :=
  ∀ (s : State) (a : Addr), s.Inv → s.Accepts (.read a) → s.blk.own = .held → s.NoReset s.readEdges →
    1 ≤ s.params.phaseCycles ∧ 1 ≤ s.settleEdges ∧
    ∃ t, run (s.readEdges + 1) s = .next t ∧
      t.board.recorder =
        [(s.board.edge + 7 * s.params.phaseCycles + s.settleEdges, .rdN true),
         (s.board.edge + 6 * s.params.phaseCycles + s.settleEdges, .denN true),
         (s.board.edge + 5 * s.params.phaseCycles + s.settleEdges, .adRead),
         (s.board.edge + 5 * s.params.phaseCycles, .denN false),
         (s.board.edge + 4 * s.params.phaseCycles, .rdN false),
         (s.board.edge + 3 * s.params.phaseCycles, .lowFloated),
         (s.board.edge + 2 * s.params.phaseCycles, .ale false),
         (s.board.edge + s.params.phaseCycles, .ale true),
         (s.board.edge, .adDriven a)] ++ s.board.recorder

/-- What `READ a` answers: the byte of the device at `a` when one responds and the settle wait covers that device's own
access time, with the target keeping the grant (`HANDSHAKE`; log entry 5); any value when no device responds or the wait is
too short (R96). The forms of the premises and of the free value are the model's (log entries 6, 7 and 8). -/
def Obligations.ReadAnswersTheTarget : Prop :=
  ∀ (s : State) (a : Addr), s.Inv → s.Accepts (.read a) → s.blk.own = .held → s.NoReset s.readEdges →
    ∃ t, run (s.readEdges + 1) s = .next t ∧ t.blk.rspData = t.blk.data ∧
      (∀ b, s.Answers a b → s.SettleOk a → s.KeepsGrant → t.blk.data = b) ∧
      (s.target.mem.read a.toNat = none ∨ ¬s.SettleOk a →
        t.blk.data = Config.freeByte (s.board.edge + 5 * s.params.phaseCycles + s.settleEdges))

/-! ## Frames and agents -/

/-- What `exec`, the command's own part of the edge that accepts it, leaves unchanged: the parameters, the host's port, the
target and every byte of its memory, the latch, the synchroniser and the edge counter for every command; and each
register for every command but those that write it. (The rest of the edge then shifts the synchroniser and moves the
agents outside: StepRunsDecodedCommand.) -/
def Obligations.ExecFrame : Prop :=
  ∀ (i : Instr) (s t : State), exec i s = .next t →
    t.params = s.params ∧ t.host = s.host ∧ t.target = s.target ∧
    (∀ a, t.target.mem.read a = s.target.mem.read a) ∧
    t.board.latch = s.board.latch ∧ t.board.edge = s.board.edge ∧
    t.blk.s1 = s.blk.s1 ∧ t.blk.s2 = s.blk.s2 ∧
    ((∀ n, i ≠ .setsettle n) → t.blk.settle = s.blk.settle) ∧
    (i ≠ .sample → t.blk.data = s.blk.data) ∧
    ((∀ a, i ≠ .read a) → t.blk.opnd = s.blk.opnd ∧ t.blk.cnt = s.blk.cnt) ∧
    (i ≠ .acquire → t.blk.own = s.blk.own ∧ t.blk.holdO = s.blk.holdO) ∧
    (i ≠ .acquire → i ≠ .release → (∀ a, i ≠ .read a) → t.blk.ph = s.blk.ph) ∧
    (i = .acquire ∨ i = .release ∨ (∃ a, i = .read a) → stateOk i s.blk.own = true →
      t.blk.rspValid = s.blk.rspValid ∧ t.blk.rspStatus = s.blk.rspStatus ∧ t.blk.rspData = s.blk.rspData) ∧
    (i ≠ .release →
      ∀ x ∈ [SwLine.ale, .denN, .dtR, .ioM, .rdN, .wrN],
        t.blk.lines.dir x = s.blk.lines.dir x ∧ t.blk.lines.out x = s.blk.lines.out x) ∧
    (i = .acquire ∨ i = .sample ∨ (∃ n, i = .setsettle n) → t.blk.lines = s.blk.lines) ∧
    (i = .release ∨ i = .float → ∀ x, t.blk.lines.out x = s.blk.lines.out x) ∧
    (stateOk i s.blk.own = true → i.wellFormed = true → t.blk.err = s.blk.err)

/-- No edge writes the target's memory, and no edge changes the parameters. The block cannot write it (R49); that nothing
else changes it, even while the target's own processor owns the bus, is the model's choice (log entry 28). -/
def Obligations.TargetMemoryNeverWritten : Prop :=
  ∀ s t : State, step s = .next t → t.params = s.params ∧ ∀ a, t.target.mem.read a = s.target.mem.read a

/-- The target the model carries, once its planned levels are used up, raises `HLDA` only while `HOLD = 1` and lowers it
only while `HOLD = 0` (R46). The agent's form is the model's choice (log entry 4). -/
def Obligations.TargetKeepsHandshake : Prop :=
  ∀ s t : State, s.target.plan = [] → step s = .next t →
    (s.target.hlda = false → t.target.hlda = true → t.blk.holdO = true) ∧
    (s.target.hlda = true → t.target.hlda = false → t.blk.holdO = false)

/-- The host the model carries, once its forced levels are used up, holds a word that was not accepted steady on the port
(R105 duty 1). The agent's form is the model's choice (log entry 3). -/
def Obligations.HostHoldsUnacceptedWord : Prop :=
  ∀ s t : State, s.host.forced = [] → s.host.pins.cmdValid = true → s.accepts = false → step s = .next t →
    t.host.pins.cmdValid = true ∧ t.host.pins.cmdWord = s.host.pins.cmdWord ∧ t.host.queue = s.host.queue

/-! ## The capture (45_host_sequence.md) -/

/-- The host's capture sends `ACQUIRE`, exactly 1,048,576 `READ`s whose addresses ascend from 0x00000 to 0xFFFFF, each value
once, then `FLOAT` and `RELEASE`, and nothing else (R107, R106). -/
def Obligations.CaptureReadsEachAddressOnce : Prop :=
  capture.length = 1048579 ∧ capture[0]? = some .acquire ∧
  (∀ k < 1048576, ∃ x : Addr, capture[k + 1]? = some (.read x) ∧ x.toNat = k) ∧
  capture[1048577]? = some .float ∧ capture[1048578]? = some .release

/-- The artifact has exactly 1,048,576 bytes whatever failed; an offset whose byte was lost has the placeholder `0x00`, one
whose byte was not has the sample of the `READ` of that address, and the failed offsets are counted (R108, R109). That the
sample of `READ k` is the answer at position `k + 1` and that the failures are a list are the model's choice (log entry
27). -/
def Obligations.ArtifactKeepsOffsets : Prop :=
  ∀ (lost : List Nat) (rs : List Response),
    (artifact (forwarded lost rs)).1.length = 1048576 ∧
    (∀ k < 1048576, k ∈ lost → (artifact (forwarded lost rs)).1[k]? = some 0) ∧
    (∀ k < 1048576, ∀ b, k ∉ lost → captureSample rs k = some b → (artifact (forwarded lost rs)).1[k]? = some b) ∧
    ((∀ k < 1048576, ∃ b, captureSample rs k = some b) →
      (artifact (forwarded lost rs)).2 = (List.range 1048576).countP fun k => decide (k ∈ lost))

/-- A capture run on the machine, from any released state that meets the invariant: its artifact is there after
`captureEdges` edges and not one edge sooner; it has 1,048,576 bytes; and the byte at each offset `k` that was not lost is
the sample the block took at T7 of the `READ` of address `k` in that run, which is the device's byte where one responds at
`k` and the settle wait covers its access time (R108, R96). The target answers each change of `HOLD` `d` edges late and the
host presents each word as soon as the one before is accepted: the forms of these agents, of the premises, of the sample
and of the test that the capture has ended are the model's (log entries 3 to 8, 27 and 29). -/
def Obligations.CaptureArtifactIsTheSamples : Prop :=
  ∀ (s : State) (d : Nat) (lost : List Nat), s.Inv → s.blk.ph = .idle → s.blk.own = .released → s.blk.s1 = false →
    s.blk.s2 = false → s.target.hlda = false → s.target.plan = [] → s.target.delay = some d → s.target.owed = 0 →
    s.captureArtifact lost (s.captureEdges d - 1) = none ∧
    ∃ bytes failed, s.captureArtifact lost (s.captureEdges d) = some (bytes, failed) ∧ bytes.length = 1048576 ∧
      failed = ((List.range 1048576).countP fun k => decide (k ∈ lost)) ∧
      ∀ k < 1048576, ∃ j u, run j s.startCapture = .next u ∧ u.blk.ph = .rcSettle ∧ u.blk.cnt = 0 ∧
        u.blk.opnd.toNat = k ∧ bytes[k]? = some (if k ∈ lost then 0 else u.samplePins) ∧
        ∀ b, s.Answers (BitVec.ofNat 20 k) b → s.SettleOk (BitVec.ofNat 20 k) → u.samplePins = b
end

