-- ==== Sys2Proof/Laws/PerInstr.lean ====
section
/-! SUPPORT. The family of statements about commands as syntax: the word of each command meets its row of R69's table. -/

namespace Sys2Proof.Laws.TableRow

/-- "a word `w` selects the command when `w & mask == match`" (R69). -/
def Statement (i : Instr) : Prop := encode i &&& maskWord i = matchWord i

theorem acquire : Statement .acquire := by unfold Statement; decide

theorem release : Statement .release := by unfold Statement; decide

theorem drive (a : Addr) : Statement (.drive a) := by
  simp only [Statement, encode, maskWord, matchWord]
  ext i hi
  interval_cases i <;> simp

theorem float : Statement .float := by unfold Statement; decide

theorem sample : Statement .sample := by unfold Statement; decide

theorem read (a : Addr) : Statement (.read a) := by
  simp only [Statement, encode, maskWord, matchWord]
  ext i hi
  interval_cases i <;> simp

theorem setsettle (n : Micros) : Statement (.setsettle n) := by
  simp only [Statement, encode, maskWord, matchWord]
  ext i hi
  interval_cases i <;> simp

end Sys2Proof.Laws.TableRow
end

