-- ==== Sys2Proof/Tests/Slice0.lean ====
section
/-! SUPPORT. The model's own tests, each from a vector of 95_test_vectors.md or an example of a rule, and a witness for
every statement that has hypotheses. -/

namespace Sys2Proof.Tests

open Sys2Proof Sys2Proof.Machine

/-! ## Small states -/

/-- The state after an edge. -/
def stepped (s : State) : State :=
  match step s with
  | .next t => t
  | .fault _ => s
  | .refused _ => s

/-- Held and idle, as after ARB-1, with a device at 0x12345 (RC-1). -/
def held : State :=
  { State.reset with
    blk := { Block.reset with
      lines := Lines.reset.driveControl
      own := .held, holdO := true, s1 := true, s2 := true }
    target := ⟨true, [], some 0, 0, [(0x12345, 0x5A)], 1, []⟩ }

/-- `ACQ_WAIT`, with the synchroniser and the pin at `h`. -/
def acqWait (h : Level) : State :=
  { State.reset with
    blk := { Block.reset with own := .requested, holdO := true, ph := .acqWait, s1 := h, s2 := h }
    target := ⟨h, [], none, 0, [], 0, []⟩ }

/-- A `RELEASE` in phase `p`, with the synchroniser and the pin at `h`. -/
def releasing (p : Phase) (h : Level) : State :=
  { State.reset with
    blk := { Block.reset with own := .held, holdO := decide (p = .relHold), ph := p, s1 := h, s2 := h }
    target := ⟨h, [], none, 0, [], 0, []⟩ }

/-- The lines in phase `p` of `READ 0x12345` (RC-1). -/
def readLines (p : Phase) : Lines where
  ad := ⟨if p.fullAddress then 0xFFFFF else 0xFFF00, 0x12345⟩
  ale := ⟨.driven, decide (p = .rcAleLo)⟩
  denN := ⟨.driven, !p.bufferOn⟩
  dtR := ⟨.driven, false⟩
  ioM := ⟨.driven, false⟩
  rdN := ⟨.driven, !p.readStrobe⟩
  wrN := ⟨.driven, true⟩

/-- Phase `p` of `READ 0x12345`, at its last edge (RC-1: `P = 1`, `S = 1`). -/
def reading (p : Phase) : State :=
  { held with
    blk := { held.blk with lines := readLines p, ph := p, opnd := 0x12345 }
    board := ⟨0x12345, if p.bufferOn then 1 else 0, [], 0⟩ }

/-- A state with a reset on its port. -/
def underReset (s : State) : State := { s with host := { s.host with pins := ⟨true, true, 0x70000002⟩ } }

/-- A word presented while the block may be busy. -/
def offered (s : State) (w : Word32) : State := { s with host := { s.host with pins := ⟨false, true, w⟩ } }

/-! ## Well-formedness and decoding -/

/-- R70 item 5. -/
theorem test_setsettle_zero_is_illFormed : (Instr.setsettle 0).wellFormed = false := by decide

/-- ENC-2, ENC-4, ENC-10, ENC-12. -/
theorem test_decode_plain :
    decode 0x10000000#32 = .ok .acquire ∧ decode 0x20000000#32 = .ok .release ∧
    decode 0x40000000#32 = .ok .float ∧ decode 0x50000000#32 = .ok .sample := by decide

/-- ENC-6, ENC-7, ENC-14 and the example of R88. -/
theorem test_decode_address :
    decode 0x30000000#32 = .ok (.drive 0) ∧ decode 0x300FFFFF#32 = .ok (.drive 0xFFFFF) ∧
    decode 0x6000ABCD#32 = .ok (.read 0x0ABCD) ∧ decode 0x60012345#32 = .ok (.read 0x12345) := by decide

/-- ENC-17, ENC-18. -/
theorem test_decode_value :
    decode 0x70000001#32 = .ok (.setsettle 1) ∧ decode 0x7000FFFF#32 = .ok (.setsettle 65535) := by decide

/-- ENC-1, ENC-3, ENC-5, ENC-9, ENC-15, ENC-19, ENC-16, ENC-20, ENC-21, ENC-23. -/
theorem test_decode_illegal :
    decode 0x00000000#32 = .error .opcode ∧ decode 0x10000001#32 = .error .z28 ∧
    decode 0x28000000#32 = .error .z28 ∧ decode 0x3FFFFFFF#32 = .error .z8 ∧
    decode 0x60100000#32 = .error .z8 ∧ decode 0x70010001#32 = .error .z12 ∧
    decode 0x70000000#32 = .error .zeroVal ∧ decode 0x70010000#32 = .error .z12 ∧
    decode 0x80000000#32 = .error .opcode ∧ decode 0xFFFFFFFF#32 = .error .opcode := by decide

/-- The examples of R82, R88 and R102. -/
theorem test_encode :
    encode (.drive 0xA5C3F) = 0x300A5C3F#32 ∧ encode (.read 0x12345) = 0x60012345#32 ∧
    encode (.setsettle 3) = 0x70000003#32 := by decide

/-- The table's numbering is the word's own (R66). -/
theorem test_tableWord :
    decodeTableWord 32 0x70000001 = some (.setsettle 1) ∧ decodeTableWord 32 0x70000000 = none := by decide

/-! ## Assembler -/

/-- ASM-1, ASM-3, ASM-4. -/
theorem test_assemble :
    assembleWords ['R', 'E', 'A', 'D', ' ', '0', 'x', '1', '2', '3', '4', '5'] = .ok [0x60012345#32] ∧
    assembleWords ['S', 'E', 'T', 'S', 'E', 'T', 'T', 'L', 'E', ' ', '1', '6'] = .ok [0x70000010#32] ∧
    assembleWords ['S', 'E', 'T', 'S', 'E', 'T', 'T', 'L', 'E', ' ', '0', 'x', '1', '0'] = .ok [0x70000010#32] := by
  decide

/-- ASM-5, ASM-6, ASM-7. -/
theorem test_assemble_refuses :
    assembleWords ['D', 'R', 'I', 'V', 'E', ' ', '0', 'x', '1', '0', '0', '0', '0', '0'] = .error .badOperand ∧
    assembleWords ['S', 'E', 'T', 'S', 'E', 'T', 'T', 'L', 'E', ' ', '0'] = .error .badOperand ∧
    assembleWords ['F', 'L', 'O', 'A', 'T', ' ', '0', 'x', '1'] = .error .extraOperand := by decide

/-- ASM-8, ASM-9. -/
theorem test_assemble_readN :
    assembleWords ['R', 'E', 'A', 'D', 'N', ' ', '0', 'x', 'F', 'F', 'F', 'F', 'E', ',', ' ', '2'] =
      .ok [0x600FFFFE#32, 0x600FFFFF#32] ∧
    assembleWords ['R', 'E', 'A', 'D', 'N', ' ', '0', 'x', 'F', 'F', 'F', 'F', 'F', ',', ' ', '2'] =
      .error .badOperand := by decide

/-- R109: the placeholder keeps the offsets. -/
theorem test_artifact_placeholder :
    artifactUpTo 3 (forwarded [1] [⟨.ok, 0⟩, ⟨.ok, 0x5A⟩, ⟨.ok, 0x77⟩, ⟨.ok, 0xEA⟩]) = ([0x5A, 0x00, 0xEA], 1) := by
  decide

/-- R106: the capture begins with `ACQUIRE`. -/
theorem test_capture_starts : State.reset.startCapture.host.pins = ⟨false, true, 0x10000000#32⟩ := rfl

/-- ARB-1: `ACQUIRE` answers at edge 3 and nothing answers before it, with the next word on the port meanwhile. -/
theorem test_responses :
    responses 3 (State.reset.offer [0x10000000#32, 0x60000000#32]) = [] ∧
    responses 4 (State.reset.offer [0x10000000#32, 0x60000000#32]) = [⟨.ok, 0⟩] := by decide

/-- R106: a capture whose `ACQUIRE` was rejected is not done; and the answer of a command of before it is not its own. -/
theorem test_capture_refused :
    captureDone [⟨.badState, 0⟩] = false ∧
    responses 1 ((releasing .relWait false).offer [0x10000000#32, 0x60000000#32]) = [⟨.ok, 0⟩] ∧
    (releasing .relWait false).busy = true := by decide

/-- SRC-S4: with defaults, `RELEASE` completes @ 9,437,193. -/
theorem test_capture_edges : State.reset.captureEdges 0 = 9437194 := by decide

/-! ## Single edges -/

/-- ARB-1 @ 0: `STATUS = 0x15`. -/
theorem test_acquire_requests : (stepped (State.reset.present 0x10000000#32)).status = 0x15 := by decide

/-- ARB-1 @ 3: `STATUS = 0x32` and the response. -/
theorem test_acquire_completes :
    (stepped (acqWait true)).status = 0x32 ∧ (stepped (acqWait true)).blk.rspValid = true := by decide

/-- R78: `HOLD` still stands at the accepting edge, with every line floating. -/
theorem test_release_floats_first :
    (stepped (held.present 0x20000000#32)).blk.holdO = true ∧
    (stepped (held.present 0x20000000#32)).blk.lines.ale.dir = .floating := by decide

/-- ARB-7: `STATUS = 0x26` once `HOLD` has fallen and `HLDA` stays. -/
theorem test_release_drops_hold : (stepped (releasing .relHold true)).status = 0x26 := by decide

/-- DRV-1, and DRV-6 from reset. -/
theorem test_drive :
    (stepped (held.present 0x300A5C3F#32)).blk.lines.ad = ⟨0xFFFFF, 0xA5C3F⟩ ∧
    (stepped (State.reset.present 0x300A5C3F#32)).blk.rspStatus = .badState := by decide

/-- FLT-1: the levels are kept. -/
theorem test_float :
    (stepped ((stepped (held.present 0x300A5C3F#32)).present 0x40000000#32)).blk.lines.ad = ⟨0, 0xA5C3F⟩ := by
  decide

/-- SMP-1: no device answers outside a read cycle. -/
theorem test_sample_no_device : (held.present 0x50000000#32).deviceByte = none := by decide

/-- SMP-4: rejected from reset. -/
theorem test_sample_badState : (stepped (State.reset.present 0x50000000#32)).status = 0x08 := by decide

/-- RC-1 @ 3: the low byte floats. -/
theorem test_read_low_byte : (stepped (reading .rcFloat)).blk.lines.ad = ⟨0xFFF00, 0x12345⟩ := by decide

/-- RC-1 @ 6: the device's byte is sampled. -/
theorem test_read_samples_device : (stepped (reading .rcSettle)).blk.data = 0x5A := by
  have h : (stepped (reading .rcSettle)).blk.data = (0x5A#8 &&& ~~~0#8) ||| (Config.freeByte 0 &&& 0#8) := rfl
  rw [h, BitVec.and_zero]
  decide

/-- CFG-1, CFG-2. -/
theorem test_setsettle :
    (stepped (State.reset.present 0x70000003#32)).blk.settle = 3 ∧
    (stepped (State.reset.present 0x70000000#32)).status = 0x08 := by decide

/-- EX-2: `ILLEGAL` wins. -/
theorem test_illegal_first : (stepped (State.reset.present 0x30100000#32)).blk.rspStatus = .illegal := by decide

/-- RST-2: reset during a `READ`. -/
theorem test_reset_during_read :
    (stepped (underReset (reading .rcDenOn))).status = 0 ∧
    (stepped (underReset (reading .rcDenOn))).blk.rspValid = false := by decide

/-- EX-7: a command under reset is not accepted. -/
theorem test_reset_beats_command : (stepped (underReset State.reset)).blk.settle = 1 := by decide

/-- A word placed by `withFetchWord` is the one the very next step runs. -/
theorem test_withFetchWord : (stepped (State.reset.withFetchWord 32 0x70000009)).blk.settle = 9 := by decide

/-! ## The states above meet the invariant -/

theorem test_inv_reset : State.reset.Inv := by constructor <;> decide

theorem test_inv_held : held.Inv := by constructor <;> decide

theorem test_inv_acqWait : (acqWait true).Inv ∧ (acqWait false).Inv := by
  constructor <;> constructor <;> decide

theorem test_inv_releasing :
    (releasing .relHold true).Inv ∧ (releasing .relWait true).Inv ∧ (releasing .relWait false).Inv := by
  refine ⟨?_, ?_, ?_⟩ <;> constructor <;> decide

theorem test_inv_reading :
    ∀ p ∈ [Phase.rcAleHi, .rcAleLo, .rcFloat, .rcRdOn, .rcDenOn], (reading p).Inv := by
  intro p hp
  simp only [List.mem_cons, List.not_mem_nil, or_false] at hp
  rcases hp with rfl | rfl | rfl | rfl | rfl <;> constructor <;> decide

theorem test_inv_reading_end :
    ∀ p ∈ [Phase.rcSettle, .rcDenOff, .rcRdOff], (reading p).Inv := by
  intro p hp
  simp only [List.mem_cons, List.not_mem_nil, or_false] at hp
  rcases hp with rfl | rfl | rfl <;> constructor <;> decide

/-- The states with a word on the port, used below. -/
theorem test_inv_presented :
    (State.reset.present 0x10000000#32).Inv ∧ (held.present 0x20000000#32).Inv ∧
    (held.present 0x60012345#32).Inv ∧ (held.present 0x50000000#32).Inv := by
  refine ⟨?_, ?_, ?_, ?_⟩ <;> constructor <;> decide

/-! ## Witnesses: states and operands that meet the hypotheses of the statements, all together -/

/-- DecodeOfEncode, at the ends of the operands' ranges. -/
theorem test_witness_DecodeOfEncode :
    (Instr.setsettle 1).wellFormed = true ∧ (Instr.setsettle 65535).wellFormed = true ∧
    (Instr.read 0xFFFFF).wellFormed = true := by decide

/-- EncodeOfDecode. -/
theorem test_witness_EncodeOfDecode : decode 0x7000FFFF#32 = .ok (.setsettle 0xFFFF) := by decide

/-- IllegalWords and IllegalComesBeforeBadState: each of the five items, accepted. -/
theorem test_witness_IllegalWords :
    ∀ x ∈ [(0x80000000#32, IllegalCause.opcode), (0x10000001#32, .z28), (0x30100000#32, .z8), (0x70010000#32, .z12),
        (0x70000000#32, .zeroVal)],
      (State.reset.present x.1).accepts = true ∧ decode (State.reset.present x.1).host.pins.cmdWord = .error x.2 := by
  decide

/-- AssembledWordsAreLegal: test_assemble; ReadnAddressesAscend, at the end of the space. -/
theorem test_witness_ReadnAddressesAscend : 1 ≤ 2 ∧ 0xFFFFE + 2 - 1 ≤ 0xFFFFF := by decide

/-- StepRunsDecodedCommand. -/
theorem test_witness_StepRunsDecodedCommand :
    (held.present 0x300A5C3F#32).Accepts (.drive 0xA5C3F) ∧
    ∃ t, exec (.drive 0xA5C3F) (held.present 0x300A5C3F#32).quiet = .next t :=
  ⟨by unfold State.Accepts; decide, _, rfl⟩

/-- WordIgnoredWhenNotReady: a word at a busy block, and at one under reset; and one that is ready. -/
theorem test_witness_WordIgnoredWhenNotReady :
    (offered (acqWait false) 0x20000000#32).cmdReady = false ∧ (underReset held).cmdReady = false ∧
    (∃ t, step (offered (acqWait false) 0x20000000#32) = .next t) ∧ (held.present 0x20000000#32).cmdReady = true :=
  ⟨by decide, by decide, ⟨_, rfl⟩, by decide⟩

/-- IdleBlockStartsNothing. -/
theorem test_witness_IdleBlockStartsNothing :
    held.blk.ph = .idle ∧ held.host.pins.rst = false ∧ held.host.pins.cmdValid = false := by decide

/-- ResetEdgeSetsEveryRegister, in the middle of a `READ`. -/
theorem test_witness_ResetEdgeSetsEveryRegister :
    (underReset (reading .rcAleLo)).host.pins.rst = true ∧ (underReset (reading .rcAleLo)).blk.ph = .rcAleLo := by
  decide

/-- EdgeKeepsInvariant and NeverWritesNorSelectsIo: from a held bus, with a command on the port. -/
theorem test_witness_EdgeKeepsInvariant :
    (held.present 0x60012345#32).Inv ∧ ∃ t, step (held.present 0x60012345#32) = .next t :=
  ⟨test_inv_presented.2.2.1, _, rfl⟩

/-- LinesFloatUnlessHeld: released; a `RELEASE` accepted; a `RELEASE` in progress. -/
theorem test_witness_LinesFloatUnlessHeld :
    ((stepped State.reset).blk.own ≠ .held ∧ State.reset.Inv) ∧
    ((held.present 0x20000000#32).Accepts .release ∧ (held.present 0x20000000#32).Inv) ∧
    ((stepped (releasing .relHold true)).blk.ph = .relWait ∧ (releasing .relHold true).Inv) :=
  ⟨⟨by decide, test_inv_reset⟩, ⟨by unfold State.Accepts; decide, test_inv_presented.2.1⟩,
    by decide, test_inv_releasing.1⟩

/-- ControlLinesMoveTogether: the grant drives them, the accepted `RELEASE` floats them. -/
theorem test_witness_ControlLinesMoveTogether :
    ((acqWait true).blk.lines.dir .ale = .floating ∧ (stepped (acqWait true)).blk.own = .held) ∧
    (held.blk.lines.dir .ale = .driven ∧ (held.present 0x20000000#32).Accepts .release ∧
      (stepped (held.present 0x20000000#32)).blk.lines.dir .ale = .floating) ∧
    (stepped (underReset held)).blk.lines.dir .ale = .floating :=
  ⟨by decide, ⟨by decide, by unfold State.Accepts; decide, by decide⟩, by decide⟩

/-- OwnershipTransitions: each of the four. -/
theorem test_witness_OwnershipTransitions :
    (stepped (underReset held)).blk.own = .released ∧
    (stepped (State.reset.present 0x10000000#32)).blk.own = .requested ∧
    (stepped (acqWait true)).blk.own = .held ∧
    (stepped (releasing .relWait false)).blk.own = .released := by decide

/-- SynchroniserShifts and ErrIsStickyAndOnlyRecords: an edge without reset, and its two variants. -/
theorem test_witness_variants :
    held.host.pins.rst = false ∧ (∃ t, step held = .next t) ∧
    (∃ t, step { held with target := { held.target with hlda := false } } = .next t) ∧
    ∃ t, step { held with blk := { held.blk with err := !held.blk.err } } = .next t :=
  ⟨by decide, ⟨_, rfl⟩, ⟨_, rfl⟩, _, rfl⟩

/-- ErrIsStickyAndOnlyRecords: a rejection sets it. -/
theorem test_witness_ErrSet :
    (held.present 0x10000000#32).rejects = true ∧ (stepped (held.present 0x10000000#32)).blk.err = true := by decide

/-- SettleWrittenOnlyBySetsettle: by the command, and by reset. -/
theorem test_witness_SettleWritten :
    (stepped (held.present 0x7000FFFF#32)).blk.settle ≠ held.blk.settle ∧
    (stepped (underReset (stepped (held.present 0x7000FFFF#32)))).blk.settle = 1 := by decide

/-- DataWrittenOnlyBySamples: at T7 of a `READ`. -/
theorem test_witness_DataWritten :
    (stepped (reading .rcSettle)).blk.data ≠ (reading .rcSettle).blk.data := by
  rw [test_read_samples_device]
  decide

/-- ResponseAtCompletion: an edge that completes a command, and one that does not. -/
theorem test_witness_ResponseAtCompletion :
    (stepped (held.present 0x40000000#32)).blk.rspValid = true ∧ (stepped (acqWait false)).blk.rspValid = false := by
  decide

/-- RejectionHasNoOtherEffect and PerformedCommandsNeverFail: both codes. -/
theorem test_witness_RejectionHasNoOtherEffect :
    (held.present 0x10000000#32).accepts = true ∧ rejectCode 0x10000000#32 held.blk.own = some .badState ∧
    (held.present 0x50000080#32).accepts = true ∧ rejectCode 0x50000080#32 held.blk.own = some .illegal ∧
    (stepped (held.present 0x10000000#32)).blk.rspValid = true ∧
    (stepped (held.present 0x10000000#32)).blk.rspStatus ≠ .ok := by decide

/-- BadStateRejections: `ACQUIRE` while held, the others while released and while requested, and a `SETSETTLE`. -/
theorem test_witness_BadStateRejections :
    held.blk.own ≠ .released ∧ State.reset.blk.own ≠ .held ∧ (acqWait false).blk.own ≠ .held ∧
    ∃ t, exec (.setsettle 1) held = .next t :=
  ⟨by decide, by decide, by decide, _, rfl⟩

/-- AcquireRequestsBus and AcquireWaitEdge: with and without the acknowledgement. -/
theorem test_witness_Acquire :
    State.reset.blk.own = .released ∧
    ((acqWait true).blk.ph = .acqWait ∧ (acqWait true).host.pins.rst = false ∧ (acqWait true).blk.s2 = true) ∧
    ((acqWait false).blk.ph = .acqWait ∧ (acqWait false).blk.s2 = false) := by decide

theorem noReset_quiet {s : State} (n : Nat) (h : s.host.pins.rst = false) (hf : s.host.forced = []) : s.NoReset n :=
  ⟨h, by simp [hf]⟩

/-- AcquireBlocksForever, with a target that never answers (ARB-2). -/
theorem test_witness_AcquireBlocksForever :
    (acqWait false).blk.ph = .acqWait ∧ (acqWait false).blk.own = .requested ∧ (acqWait false).blk.holdO = true ∧
    (acqWait false).blk.rspValid = false ∧ (acqWait false).blk.s1 = false ∧ (acqWait false).blk.s2 = false ∧
    (acqWait false).PinStays 2 false ∧ (acqWait false).NoReset 2 := by
  refine ⟨rfl, rfl, rfl, rfl, rfl, rfl, fun j hj => ?_, noReset_quiet 2 rfl rfl⟩
  interval_cases j <;> exact ⟨_, rfl, rfl⟩

/-- AcquireCompletesAfterAnswer: targets T0 and T2. -/
theorem test_witness_AcquireCompletesAfterAnswer :
    ∀ k ∈ [0, 2],
      let s : State := { State.reset.present 0x10000000#32 with target := ⟨false, [], some k, 0, [], 0, []⟩ }
      s.Accepts .acquire ∧ s.blk.own = .released ∧ s.blk.s1 = false ∧ s.blk.s2 = false ∧ s.target.hlda = false ∧
      s.target.plan = [] ∧ s.target.delay = some k ∧ s.target.owed = 0 ∧ s.NoReset (k + 3) := by
  intro k _
  exact ⟨⟨rfl, by show decode 0x10000000#32 = _; decide⟩, rfl, rfl, rfl, rfl, rfl, rfl, rfl, noReset_quiet _ rfl rfl⟩

/-- ReleaseFloatsEveryLine, DrivePutsAddressOnLines, FloatReleasesAddressLines, SampleReadsDataLines and ReadStartsCycle:
the bus is held. -/
theorem test_witness_held : held.blk.own = .held := by decide

/-- ReleaseWaitEdges and LinesFloatBeforeHoldFalls: the two phases, with and without the acknowledgement. -/
theorem test_witness_Release :
    ((releasing .relHold true).blk.ph = .relHold ∧ (releasing .relHold true).blk.holdO = true ∧
      (stepped (releasing .relHold true)).blk.holdO = false) ∧
    ((releasing .relWait true).blk.ph = .relWait ∧ (releasing .relWait true).blk.s2 = true) ∧
    ((releasing .relWait false).blk.ph = .relWait ∧ (releasing .relWait false).blk.s2 = false) ∧
    (releasing .relWait false).host.pins.rst = false := by decide

/-- ReleaseBlocksForever, with a target that never withdraws (ARB-7). -/
theorem test_witness_ReleaseBlocksForever :
    (releasing .relWait true).blk.ph = .relWait ∧ (releasing .relWait true).blk.own = .held ∧
    (releasing .relWait true).blk.holdO = false ∧ (releasing .relWait true).blk.lines.allFloating ∧
    (releasing .relWait true).blk.rspValid = false ∧ (releasing .relWait true).blk.s1 = true ∧
    (releasing .relWait true).blk.s2 = true ∧ (releasing .relWait true).PinStays 2 true ∧
    (releasing .relWait true).NoReset 2 := by
  refine ⟨rfl, rfl, rfl, fun x => ?_, rfl, rfl, rfl, fun j hj => ?_, noReset_quiet 2 rfl rfl⟩
  · cases x with
    | ad i => revert i; decide
    | _ => rfl
  · interval_cases j <;> exact ⟨_, rfl, rfl⟩

/-- ReleaseCompletesAfterWithdrawal: targets T0 and T2. -/
theorem test_witness_ReleaseCompletesAfterWithdrawal :
    ∀ k ∈ [0, 2],
      let s : State := { held.present 0x20000000#32 with target := ⟨true, [], some k, 0, [], 0, []⟩ }
      s.Accepts .release ∧ s.blk.own = .held ∧ s.blk.holdO = true ∧ s.blk.s1 = true ∧ s.blk.s2 = true ∧
      s.target.hlda = true ∧ s.target.plan = [] ∧ s.target.delay = some k ∧ s.target.owed = 0 ∧ s.NoReset (k + 4) := by
  intro k _
  exact ⟨⟨rfl, by show decode 0x20000000#32 = _; decide⟩, rfl, rfl, rfl, rfl, rfl, rfl, rfl, rfl, noReset_quiet _ rfl rfl⟩

/-- DriveAndFloatCannotFail: performed, and rejected. -/
theorem test_witness_DriveAndFloatCannotFail :
    (∃ t, exec (.drive 0) held = .next t) ∧ ∃ t, exec .float State.reset = .next t := ⟨⟨_, rfl⟩, _, rfl⟩

/-- StandaloneSampleIsAnyValue. -/
theorem test_witness_StandaloneSampleIsAnyValue : held.Inv ∧ held.blk.ph = .idle ∧ held.blk.own = .held :=
  ⟨test_inv_held, rfl, rfl⟩

/-- SampleAndAddressBitOrder: T7 of a `READ` in a state where the block drives `AD[0]` too, so that bit 0 is a driven line
and bit 1 the device's; a state with no device; and a held one for `DRIVE`. -/
theorem test_witness_SampleAndAddressBitOrder :
    let s : State := { reading .rcSettle with
      blk := { (reading .rcSettle).blk with lines := { readLines .rcSettle with ad := ⟨0xFFF01, 0x12345⟩ } } }
    s.blk.lines.ad.driven.getLsbD 0 = true ∧ s.blk.lines.ad.driven.getLsbD 1 = false ∧ s.deviceByte = some 0x5A ∧
    held.deviceByte = none ∧ held.blk.own = .held := by decide

/-- SetsettleWritesSettle, at the ends of the range. -/
theorem test_witness_SetsettleWritesSettle : (1 : Micros) ≠ 0 ∧ (65535 : Micros) ≠ 0 := by decide

/-- ReadPhaseEdges: each phase at its end, and one still counting. -/
theorem test_witness_ReadPhaseEdges :
    (∀ p ∈ [Phase.rcAleHi, .rcAleLo, .rcFloat, .rcRdOn, .rcDenOn, .rcSettle, .rcDenOff, .rcRdOff],
      (reading p).host.pins.rst = false ∧ (reading p).blk.ph.reading = true ∧ (reading p).blk.ph = p ∧
        (reading p).blk.cnt = 0) ∧
    ({ reading .rcSettle with blk := { (reading .rcSettle).blk with cnt := 1 } } : State).blk.ph.reading = true := by
  decide

/-- LatchCapturesAtStrobeFall: the edge of the fall, and another. -/
theorem test_witness_LatchCapturesAtStrobeFall :
    ((reading .rcAleLo).Inv ∧ (reading .rcAleLo).host.pins.rst = false ∧ (reading .rcAleLo).blk.cnt = 0) ∧
    (reading .rcAleHi).Inv :=
  ⟨⟨test_inv_reading _ (by decide), rfl, rfl⟩, test_inv_reading _ (by decide)⟩

/-- DeviceSeesTheOperand: an edge into each of its phases. -/
theorem test_witness_DeviceSeesTheOperand :
    ((held.present 0x60012345#32).Inv ∧ (stepped (held.present 0x60012345#32)).blk.ph = .rcAleHi) ∧
    ((reading .rcAleLo).Inv ∧ (stepped (reading .rcAleLo)).blk.ph = .rcFloat) ∧
    ((reading .rcDenOff).Inv ∧ (stepped (reading .rcDenOff)).blk.ph = .rcRdOff) :=
  ⟨⟨test_inv_presented.2.2.1, rfl⟩, ⟨test_inv_reading _ (by decide), rfl⟩, test_inv_reading_end _ (by decide), rfl⟩

/-- SamplePointPrecondition. -/
theorem test_witness_SamplePointPrecondition :
    (reading .rcSettle).Inv ∧ (reading .rcSettle).host.pins.rst = false ∧ (reading .rcSettle).blk.ph = .rcSettle ∧
    (reading .rcSettle).blk.cnt = 0 :=
  ⟨test_inv_reading_end _ (by decide), rfl, rfl, rfl⟩

/-- ReadCompletesOnTime, ReadTraceIsTheNineEvents and ReadAnswersTheTarget. -/
theorem test_witness_Read :
    (held.present 0x60012345#32).Inv ∧ (held.present 0x60012345#32).Accepts (.read 0x12345) ∧
    (held.present 0x60012345#32).blk.own = .held ∧
    (held.present 0x60012345#32).NoReset (held.present 0x60012345#32).readEdges :=
  ⟨test_inv_presented.2.2.1, by unfold State.Accepts; decide, rfl, noReset_quiet _ rfl rfl⟩

/-- ReadAnswersTheTarget: a device that answers in time; an address where none answers; a wait too short. -/
theorem test_witness_ReadAnswersTheTarget :
    (held.Answers 0x12345 0x5A ∧ held.SettleOk 0x12345 ∧ held.KeepsGrant) ∧ held.target.mem.read 0x12344 = none ∧
    ¬({ held with target := { held.target with devices := [⟨0x12345, 0x12345, 2⟩] } } : State).SettleOk 0x12345 := by
  unfold State.Answers State.SettleOk State.KeepsGrant
  decide

/-- R96: a device whose own time is covered answers beside slower ones. -/
theorem test_fast_device_beside_slow :
    ({ reading .rcSettle with
      target := { held.target with accessEdges := 9, devices := [⟨0x12000, 0x12FFF, 1⟩] } } : State).deviceByte =
        some 0x5A ∧
    ({ reading .rcSettle with
      target := { held.target with accessEdges := 9, devices := [⟨0, 0xFFF, 1⟩] } } : State).deviceByte = none := by
  decide

/-- ArtifactKeepsOffsets: a lost offset and one that is not, with a sample at every offset. -/
theorem test_witness_ArtifactKeepsOffsets :
    (1048575 ∈ [1048575] ∧ 0 ∉ [1048575]) ∧
    ∀ k < 1048576, ∃ b, captureSample (List.replicate 1048577 ⟨.ok, 0x5A⟩) k = some b := by
  refine ⟨by decide, fun k hk => ⟨0x5A, ?_⟩⟩
  unfold captureSample
  rw [List.getElem?_replicate, if_pos (by omega)]

/-- CaptureArtifactIsTheSamples: a released bus, target T2, a device that answers in time. -/
theorem test_witness_CaptureArtifactIsTheSamples :
    let s : State := { State.reset with target := ⟨false, [], some 2, 0, [(0x12345, 0x5A)], 1, []⟩ }
    s.Inv ∧ s.blk.ph = .idle ∧ s.blk.own = .released ∧ s.blk.s1 = false ∧ s.blk.s2 = false ∧ s.target.hlda = false ∧
    s.target.plan = [] ∧ s.target.delay = some 2 ∧ s.target.owed = 0 ∧ s.Answers (BitVec.ofNat 20 0x12345) 0x5A ∧
    s.SettleOk (BitVec.ofNat 20 0x12345) := by
  refine ⟨?_, rfl, rfl, rfl, rfl, rfl, rfl, rfl, rfl, ?_, ?_⟩
  · constructor <;> decide
  · unfold State.Answers
    decide
  · unfold State.SettleOk
    decide

/-- ExecFrame: every command answers. -/
theorem test_witness_ExecFrame :
    ∀ i : Instr, ∃ t, exec i held = .next t := by
  intro i
  obtain ⟨b, r, h, -⟩ := exec_answers i held
  exact ⟨_, h⟩

/-- TargetKeepsHandshake: the target of T0 raises `HLDA` as `HOLD` rises, and lowers it as `HOLD` falls. -/
theorem test_witness_TargetKeepsHandshake :
    (stepped (State.reset.present 0x10000000#32)).target.hlda = true ∧
    (stepped { releasing .relHold true with target := ⟨true, [], some 0, 0, [], 0, []⟩ }).target.hlda = false := by
  decide

/-- HostHoldsUnacceptedWord: a word held on the port while `ACQUIRE` waits. -/
theorem test_witness_HostHoldsUnacceptedWord :
    (offered (acqWait false) 0x20000000#32).host.forced = [] ∧
    (offered (acqWait false) 0x20000000#32).host.pins.cmdValid = true ∧
    (offered (acqWait false) 0x20000000#32).accepts = false ∧
    ∃ t, step (offered (acqWait false) 0x20000000#32) = .next t :=
  ⟨rfl, rfl, by decide, _, rfl⟩

end Sys2Proof.Tests
end

section
/-! PROOFS. What one edge does, said once: the accepting edge of a command that `OWN` allows (`State.perform`), the phase in
progress, the four kinds of edge, and what an edge does to the bus (`BusEdge`). -/

namespace Sys2Proof.Machine

/-! ## What an accepted word does (R71) -/

/-- The accepting edge of a command that `OWN` allows, without the tests of `exec`; tied to it by `exec_of_stateOk`. -/
def State.perform (s : State) : Instr → State
  | .acquire => ((s.setHold Config.holdActive).setOwn .requested).setPhase .acqWait
  | .release => ((s.floatAddress).floatControl).setPhase .relHold
  | .drive a => (s.driveAddress a).respond .ok 0
  | .float => (s.floatAddress).respond .ok 0
  | .sample => (s.sampleData).respond .ok s.samplePins
  | .read a => ((s.setOpnd a).driveAddress a).enterPhase .rcAleHi
  | .setsettle n => (s.setSettle n).respond .ok 0

/-- A well-formed command that `OWN` allows is performed. -/
theorem exec_of_stateOk {i : Instr} {s : State} (hw : i.wellFormed = true) (h : stateOk i s.blk.own = true) :
    exec i s = .next (s.perform i) := by
  cases i <;>
    simp_all [stateOk, Instr.wellFormed, exec, execAcquire, execRelease, execDrive, execFloat, execSample, execRead,
      execSetsettle, State.perform]

/-- A legal word holds a well-formed command (R70 item 5). -/
theorem wellFormed_of_decode {w : Word32} {i : Instr} (h : decode w = .ok i) : i.wellFormed = true := by
  unfold decode at h
  split at h
  -- `SETSETTLE`
  case h_7 =>
    unfold decodeV at h
    repeat' split at h
    all_goals cases h
    simpa [Instr.wellFormed]
  -- no opcode
  case h_8 => cases h
  -- the commands without a condition on the operand
  all_goals
    simp only [decodeN, decodeA] at h
    split at h <;> cases h
    rfl

/-- A rejected word does nothing but the rejection (R114). -/
theorem dispatch_of_rejectCode {w : Word32} {s : State} {c : RspStatus} (h : rejectCode w s.blk.own = some c) :
    dispatch w s = .next (s.reject c) := by
  cases hd : decode w with
  | error e =>
    simp only [rejectCode, hd, Option.some.injEq] at h
    simp only [dispatch, hd, h]
  | ok i =>
    cases hok : stateOk i s.blk.own with
    | true => simp only [rejectCode, hd, hok, if_true, reduceCtorEq] at h
    | false =>
      simp only [rejectCode, hd, hok, Bool.false_eq_true, if_false, Option.some.injEq] at h
      simp only [dispatch, hd, exec_badState hok, h]

/-- A word that is legal and allowed is performed. -/
theorem dispatch_of_stateOk {w : Word32} {s : State} {i : Instr} (hd : decode w = .ok i)
    (h : stateOk i s.blk.own = true) : dispatch w s = .next (s.perform i) := by
  simp only [dispatch, hd, exec_of_stateOk (wellFormed_of_decode hd) h]

/-- Every word is either rejected or a command that `OWN` allows (R71, R115). -/
theorem rejected_or_allowed (w : Word32) (o : Ownership) :
    (∃ c, rejectCode w o = some c) ∨ (∃ i, decode w = .ok i ∧ stateOk i o = true ∧ rejectCode w o = none) := by
  cases hd : decode w with
  | error e => exact .inl ⟨.illegal, by simp only [rejectCode, hd]⟩
  | ok i =>
    cases hok : stateOk i o with
    | false => exact .inl ⟨.badState, by simp only [rejectCode, hd, hok, Bool.false_eq_true, if_false]⟩
    | true => exact .inr ⟨i, rfl, hok, by simp only [rejectCode, hd, hok, if_true]⟩

/-! ## The four kinds of edge -/

/-- An edge resets, rejects a word, performs a command, or goes on with the phase in progress. -/
theorem step_kinds {s t : State} (h : step s = .next t) :
    (s.host.pins.rst = true ∧ t = s.environment s.resetEdge) ∨
    (∃ c, s.accepts = true ∧ rejectCode s.host.pins.cmdWord s.blk.own = some c ∧
      t = s.environment (s.quiet.reject c).syncShift) ∨
    (∃ i, s.Accepts i ∧ stateOk i s.blk.own = true ∧ rejectCode s.host.pins.cmdWord s.blk.own = none ∧
      t = s.environment (s.quiet.perform i).syncShift) ∨
    (s.accepts = false ∧ s.host.pins.rst = false ∧ t = s.environment s.quiet.phaseEdge.syncShift) := by
  rcases step_cases h with hr | ⟨ha, -, -, u, hu, rfl⟩ | hp
  · exact .inl hr
  · rcases rejected_or_allowed s.host.pins.cmdWord s.blk.own with ⟨c, hc⟩ | ⟨i, hd, hok, hn⟩
    · rw [dispatch_of_rejectCode (s := s.quiet) hc] at hu
      cases hu
      exact .inr (.inl ⟨c, ha, hc, rfl⟩)
    · rw [dispatch_of_stateOk (s := s.quiet) hd hok] at hu
      cases hu
      exact .inr (.inr (.inl ⟨i, ⟨ha, hd⟩, hok, hn, rfl⟩))
  · exact .inr (.inr (.inr hp))

theorem State.Accepts.rst {s : State} {i : Instr} (h : s.Accepts i) : s.host.pins.rst = false :=
  (accepts_iff.mp h.1).2.2

theorem State.Accepts.idle {s : State} {i : Instr} (h : s.Accepts i) : s.blk.ph = .idle := (accepts_iff.mp h.1).2.1

/-- One edge accepts one command. -/
theorem State.Accepts.unique {s : State} {i j : Instr} (hi : s.Accepts i) (hj : s.Accepts j) : i = j := by
  have h := hi.2.symm.trans hj.2
  injection h

/-! ## What the phase in progress does (R43, R89) -/

/-- The transition that ends a counting phase of `READ`: T2 to T9, in the order of R88. -/
def State.cycleEnd (s : State) : State :=
  match s.blk.ph with
  | .rcAleHi => s.strobeRise
  | .rcAleLo => s.strobeFall
  | .rcFloat => s.lowByteRelease
  | .rcRdOn => s.readAssert
  | .rcDenOn => s.bufferAssert
  | .rcSettle => s.settleSample
  | .rcDenOff => s.bufferDeassert
  | .rcRdOff => s.readDeassert
  | .idle | .acqWait | .relHold | .relWait => s

theorem acqWaitEdge_of_ack {s : State} (h : s.blk.s2 = true) :
    s.acqWaitEdge = (((s.driveControl).setOwn .held).setPhase .idle).respond .ok 0 :=
  if_pos (by simp [State.ackSeen, h])

theorem acqWaitEdge_of_noAck {s : State} (h : s.blk.s2 = false) : s.acqWaitEdge = s :=
  if_neg (by simp [State.ackSeen, h])

theorem relWaitEdge_of_ack {s : State} (h : s.blk.s2 = true) : s.relWaitEdge = s :=
  if_pos (by simp [State.ackSeen, h])

theorem relWaitEdge_of_noAck {s : State} (h : s.blk.s2 = false) :
    s.relWaitEdge = ((s.setOwn .released).setPhase .idle).respond .ok 0 :=
  if_neg (by simp [State.ackSeen, h])

/-- The phase in progress by its kind: idle, one of the three of the arbiter, or a counting phase of `READ`. -/
theorem phaseEdge_kinds (s : State) :
    (s.blk.ph = .idle ∧ s.phaseEdge = s) ∨
    (s.blk.ph = .acqWait ∧ s.phaseEdge = s.acqWaitEdge) ∨
    (s.blk.ph = .relHold ∧ s.phaseEdge = s.relHoldEdge) ∨
    (s.blk.ph = .relWait ∧ s.phaseEdge = s.relWaitEdge) ∨
    (s.blk.ph.reading = true ∧ s.phaseEdge = s.countdown State.cycleEnd) := by
  unfold State.phaseEdge State.countdown State.cycleEnd
  cases s.blk.ph <;> simp [Phase.reading]

/-! ## The control lines -/

/-- The six control lines have the direction `d` (R35). -/
structure Lines.ControlDir (l : Lines) (d : LineDir) : Prop where
  ale : l.ale.dir = d
  denN : l.denN.dir = d
  dtR : l.dtR.dir = d
  ioM : l.ioM.dir = d
  rdN : l.rdN.dir = d
  wrN : l.wrN.dir = d

/-- From `l` to `m` no control line changes direction, and `DT_R`, `IO_M` and `WR_n` keep their levels. -/
structure Lines.SameControl (l m : Lines) : Prop where
  ale : m.ale.dir = l.ale.dir
  denN : m.denN.dir = l.denN.dir
  rdN : m.rdN.dir = l.rdN.dir
  dtR : m.dtR = l.dtR
  ioM : m.ioM = l.ioM
  wrN : m.wrN = l.wrN

theorem Lines.ControlDir.of_same {l m : Lines} {d : LineDir} (h : l.ControlDir d) (k : l.SameControl m) :
    m.ControlDir d :=
  ⟨k.ale.trans h.ale, k.denN.trans h.denN, k.dtR ▸ h.dtR, k.ioM ▸ h.ioM, k.rdN.trans h.rdN, k.wrN ▸ h.wrN⟩

theorem Lines.driveControl_controlDir (l : Lines) : l.driveControl.ControlDir .driven :=
  ⟨rfl, rfl, rfl, rfl, rfl, rfl⟩

theorem Lines.floatControl_controlDir (l : Lines) : l.floatControl.ControlDir .floating :=
  ⟨rfl, rfl, rfl, rfl, rfl, rfl⟩

theorem Lines.reset_controlDir : Lines.reset.ControlDir .floating := ⟨rfl, rfl, rfl, rfl, rfl, rfl⟩

/-- With the control lines floating and no address line driven, every switchable line floats (R25). -/
theorem Lines.allFloating_of_controlDir {l : Lines} (h : l.ControlDir .floating) (ha : l.ad.driven = 0) :
    l.allFloating := by
  intro x
  cases x with
  | ad i => simp [Lines.dir, ha]
  | ale => exact h.ale
  | denN => exact h.denN
  | dtR => exact h.dtR
  | ioM => exact h.ioM
  | rdN => exact h.rdN
  | wrN => exact h.wrN

/-! ## What an edge does to the bus -/

/-- What one edge can do to `OWN`, to the kind of phase and to the switchable lines (R33, R35, R75, R78, R88). -/
inductive BusEdge (s t : State) : Prop
  /-- Reset (R128). -/
  | reset (rst : s.host.pins.rst = true) (blk : t.blk = Block.reset)
  /-- An accepted `ACQUIRE` (R75). -/
  | request (accepted : s.Accepts .acquire) (before : s.blk.own = .released) (own : t.blk.own = .requested)
      (ph : t.blk.ph = .acqWait) (lines : t.blk.lines = s.blk.lines)
  /-- The acknowledgement seen while `ACQUIRE` waits (R75). -/
  | grant (rst : s.host.pins.rst = false) (waiting : s.blk.ph = .acqWait) (ack : s.blk.s2 = true)
      (own : t.blk.own = .held) (ph : t.blk.ph = .idle) (lines : t.blk.lines = s.blk.lines.driveControl)
  /-- An accepted `RELEASE` (R78). -/
  | letGo (accepted : s.Accepts .release) (before : s.blk.own = .held) (own : t.blk.own = .held)
      (ph : t.blk.ph = .relHold) (lines : t.blk.lines = s.blk.lines.floatAddress.floatControl)
  /-- The withdrawal seen while `RELEASE` waits (R78). -/
  | withdraw (rst : s.host.pins.rst = false) (waiting : s.blk.ph = .relWait) (noAck : s.blk.s2 = false)
      (own : t.blk.own = .released) (ph : t.blk.ph = .idle) (lines : t.blk.lines = s.blk.lines)
  /-- Work on the address lines or the strobes: `DRIVE`, `FLOAT`, or an edge of `READ` (R82, R83, R88). -/
  | cycle (rst : s.host.pins.rst = false) (running : s.blk.ph.reading = true ∨ s.blk.ph = .idle ∧ s.blk.own = .held)
      (notRelease : ¬ s.Accepts .release) (own : t.blk.own = s.blk.own) (releasing : t.blk.ph.releasing = false)
      (lines : s.blk.lines.SameControl t.blk.lines)
  /-- An edge that leaves `OWN` and the lines as they were. -/
  | still (rst : s.host.pins.rst = false) (notRelease : s.blk.own = .held → ¬ s.Accepts .release)
      (own : t.blk.own = s.blk.own) (releasing : t.blk.ph.releasing = s.blk.ph.releasing)
      (lines : t.blk.lines = s.blk.lines)

/-- A counting phase of `READ` keeps `OWN` and the control lines' directions, and is followed by no `RELEASE` phase. -/
theorem cycleEnd_bus (s : State) (h : s.blk.ph.reading = true) :
    s.cycleEnd.blk.own = s.blk.own ∧ s.cycleEnd.blk.ph.releasing = false ∧
      s.blk.lines.SameControl s.cycleEnd.blk.lines := by
  unfold State.cycleEnd
  cases hp : s.blk.ph with
  | idle | acqWait | relHold | relWait => simp [hp, Phase.reading] at h
  | _ => exact ⟨rfl, rfl, ⟨rfl, rfl, rfl, rfl, rfl, rfl⟩⟩

theorem releasing_of_reading {p : Phase} (h : p.reading = true) : p.releasing = false := by
  cases p <;> simp_all [Phase.reading, Phase.releasing]

/-- The phase in progress, seen from the bus. -/
theorem busEdge_of_phase {s t : State} (ha : s.accepts = false) (hr : s.host.pins.rst = false)
    (ht : t = s.environment s.quiet.phaseEdge.syncShift) : BusEdge s t := by
  have hn (i : Instr) : ¬ s.Accepts i := fun h => by simp [h.1] at ha
  subst ht
  rcases phaseEdge_kinds s.quiet with ⟨hp, he⟩ | ⟨hp, he⟩ | ⟨hp, he⟩ | ⟨hp, he⟩ | ⟨hp, he⟩ <;> rw [he]
  · exact .still hr (fun _ => hn _) rfl rfl rfl
  · cases h2 : s.blk.s2
    · rw [acqWaitEdge_of_noAck (s := s.quiet) h2]
      exact .still hr (fun _ => hn _) rfl rfl rfl
    · rw [acqWaitEdge_of_ack (s := s.quiet) h2]
      exact .grant hr hp h2 rfl rfl rfl
  · exact .still hr (fun _ => hn _) rfl (congrArg Phase.releasing (show s.blk.ph = .relHold from hp)).symm rfl
  · cases h2 : s.blk.s2
    · rw [relWaitEdge_of_noAck (s := s.quiet) h2]
      exact .withdraw hr hp h2 rfl rfl rfl
    · rw [relWaitEdge_of_ack (s := s.quiet) h2]
      exact .still hr (fun _ => hn _) rfl rfl rfl
  · by_cases hc : s.quiet.blk.cnt = 0
    · obtain ⟨ho, hrel, hl⟩ := cycleEnd_bus s.quiet hp
      rw [countdown_of_zero hc]
      exact .cycle hr (.inl hp) (hn _) ho hrel hl
    · rw [countdown_of_pos hc]
      exact .still hr (fun _ => hn _) rfl rfl rfl

/-- A performed command, seen from the bus. -/
theorem busEdge_of_perform {s t : State} {i : Instr} (ha : s.Accepts i) (hok : stateOk i s.blk.own = true)
    (ht : t = s.environment (s.quiet.perform i).syncShift) : BusEdge s t := by
  have hn (h : i ≠ .release) : ¬ s.Accepts .release := fun h' => h (ha.unique h')
  subst ht
  cases i with
  | acquire => exact .request ha (by simpa [stateOk] using hok) rfl rfl rfl
  | release =>
    have ho : s.blk.own = .held := by simpa [stateOk] using hok
    exact .letGo ha ho ho rfl rfl
  | drive | float =>
    have ho : s.blk.own = .held := by simpa [stateOk] using hok
    exact .cycle ha.rst (.inr ⟨ha.idle, ho⟩) (hn nofun) rfl (congrArg Phase.releasing ha.idle)
      ⟨rfl, rfl, rfl, rfl, rfl, rfl⟩
  | read a =>
    have ho : s.blk.own = .held := by simpa [stateOk] using hok
    exact .cycle ha.rst (.inr ⟨ha.idle, ho⟩) (hn nofun) rfl rfl ⟨rfl, rfl, rfl, rfl, rfl, rfl⟩
  | sample => exact .still ha.rst (fun _ => hn nofun) rfl rfl rfl
  | setsettle n => exact .still ha.rst (fun _ => hn nofun) rfl rfl rfl

/-- Every edge is one of the edges of the bus. -/
theorem busEdge_of_step {s t : State} (h : step s = .next t) : BusEdge s t := by
  rcases step_kinds h with ⟨hr, rfl⟩ | ⟨c, ha, hc, rfl⟩ | ⟨i, ha, hok, -, ht⟩ | ⟨ha, hr, ht⟩
  · exact .reset hr rfl
  · refine .still (accepts_iff.mp ha).2.2 (fun ho hrel => ?_) rfl rfl rfl
    simp [rejectCode, hrel.2, stateOk, ho] at hc
  · exact busEdge_of_perform ha hok ht
  · exact busEdge_of_phase ha hr ht

end Sys2Proof.Machine
end

section
/-! PROOFS. The bus: ownership, the directions of the switchable lines and the lines that never move (R29, R33 to R35, R81). -/

namespace Sys2Proof.Machine

/-! ## When the control lines are on (R35) -/

theorem Block.controlOn_iff {b : Block} : b.controlOn = true ↔ b.own = .held ∧ b.ph.releasing = false := by
  simp [Block.controlOn]

theorem Block.controlOn_congr {b c : Block} (ho : b.own = c.own) (hr : b.ph.releasing = c.ph.releasing) :
    b.controlOn = c.controlOn := by
  simp [Block.controlOn, ho, hr]

theorem Block.controlOff_of_releasing {b : Block} (h : b.ph.releasing = true) : b.controlOn = false := by
  simp [Block.controlOn, h]

theorem Block.controlOff_of_own {b : Block} (h : b.own ≠ .held) : b.controlOn = false := by
  simp [Block.controlOn, h]

theorem Block.controlDir_of_on {b : Block} (h : b.controlOn = true) : b.controlDir = .driven := by
  simp [Block.controlDir, h]

theorem Block.controlDir_of_off {b : Block} (h : b.controlOn = false) : b.controlDir = .floating := by
  simp [Block.controlDir, h]

theorem State.Inv.controlDir {s : State} (hi : s.Inv) : s.blk.lines.ControlDir s.blk.controlDir :=
  ⟨hi.aleDir, hi.denDir, hi.dtDir, hi.ioDir, hi.rdDir, hi.wrDir⟩

/-- The block of a `BusEdge.cycle` holds the bus with its control lines on (R35, R43). -/
theorem State.Inv.controlOn_of_running {s : State} (hi : s.Inv)
    (h : s.blk.ph.reading = true ∨ s.blk.ph = .idle ∧ s.blk.own = .held) : s.blk.controlOn = true := by
  refine Block.controlOn_iff.mpr ?_
  rcases h with h | ⟨hp, ho⟩
  · exact ⟨hi.held (.inl h), releasing_of_reading h⟩
  · exact ⟨ho, congrArg Phase.releasing hp⟩

/-- What one edge can do to the control lines, as a group (R35). -/
inductive ControlEdge (s t : State) : Prop
  /-- Reset floats them. -/
  | reset (rst : s.host.pins.rst = true) (blk : t.blk = Block.reset)
  /-- The grant drives them at their idle levels. -/
  | drive (rst : s.host.pins.rst = false) (off : s.blk.controlOn = false) (before : s.blk.own ≠ .held)
      (own : t.blk.own = .held) (on : t.blk.controlOn = true) (lines : t.blk.lines = s.blk.lines.driveControl)
  /-- An accepted `RELEASE` floats them, and the address lines with them. -/
  | float (accepted : s.Accepts .release) (before : s.blk.own = .held) (own : t.blk.own = .held)
      (off : t.blk.controlOn = false) (lines : t.blk.lines = s.blk.lines.floatAddress.floatControl)
  /-- Every other edge keeps their directions, and while they are off it keeps every switchable line. -/
  | keep (rst : s.host.pins.rst = false) (notRelease : s.blk.controlOn = true → ¬ s.Accepts .release)
      (own : t.blk.own = .held → s.blk.own = .held) (on : t.blk.controlOn = s.blk.controlOn)
      (lines : s.blk.lines.SameControl t.blk.lines) (still : s.blk.controlOn = false → t.blk.lines = s.blk.lines)

theorem Lines.SameControl.of_eq {l m : Lines} (h : m = l) : l.SameControl m := by
  subst h
  exact ⟨rfl, rfl, rfl, rfl, rfl, rfl⟩

/-- Every edge from a state of the invariant is one of these. -/
theorem controlEdge_of_step {s t : State} (hi : s.Inv) (h : step s = .next t) : ControlEdge s t := by
  cases busEdge_of_step h with
  | reset rst blk => exact .reset rst blk
  | request accepted before own ph lines =>
    have hs : s.blk.controlOn = false := Block.controlOff_of_own (by simp [before])
    have ht : t.blk.controlOn = false := Block.controlOff_of_own (by simp [own])
    exact .keep accepted.rst (by simp [hs]) (by simp [own]) (ht.trans hs.symm) (.of_eq lines) fun _ => lines
  | grant rst waiting ack own ph lines =>
    have ho : s.blk.own ≠ .held := by simp [hi.requested.mpr waiting]
    exact .drive rst (Block.controlOff_of_own ho) ho own
      (Block.controlOn_iff.mpr ⟨own, congrArg Phase.releasing ph⟩) lines
  | letGo accepted before own ph lines =>
    exact .float accepted before own (Block.controlOff_of_releasing (congrArg Phase.releasing ph)) lines
  | withdraw rst waiting noAck own ph lines =>
    have hs : s.blk.controlOn = false := Block.controlOff_of_releasing (congrArg Phase.releasing waiting)
    have ht : t.blk.controlOn = false := Block.controlOff_of_own (by simp [own])
    exact .keep rst (by simp [hs]) (by simp [own]) (ht.trans hs.symm) (.of_eq lines) fun _ => lines
  | cycle rst running notRelease own releasing lines =>
    have hs := hi.controlOn_of_running running
    have ht := Block.controlOn_congr own (releasing.trans (Block.controlOn_iff.mp hs).2.symm)
    exact .keep rst (fun _ => notRelease) (fun h => own ▸ h) ht lines (by simp [hs])
  | still rst notRelease own releasing lines =>
    exact .keep rst (fun hc => notRelease (Block.controlOn_iff.mp hc).1) (fun h => own ▸ h)
      (Block.controlOn_congr own releasing) (.of_eq lines) fun _ => lines

/-- Every edge leaves the control lines in the one direction R35 gives them. -/
theorem controlDir_of_step {s t : State} (hi : s.Inv) (h : step s = .next t) :
    t.blk.lines.ControlDir t.blk.controlDir := by
  cases controlEdge_of_step hi h with
  | reset rst blk => rw [blk]; exact Lines.reset_controlDir
  | drive rst off before own on lines =>
    rw [lines, Block.controlDir_of_on on]
    exact Lines.driveControl_controlDir _
  | float accepted before own off lines =>
    rw [lines, Block.controlDir_of_off off]
    exact Lines.floatControl_controlDir _
  | keep rst notRelease own on lines still =>
    have hd : t.blk.controlDir = s.blk.controlDir := by simp [Block.controlDir, on]
    exact hd ▸ hi.controlDir.of_same lines

/-- Every edge that leaves the control lines off leaves no address line driven (R34). -/
theorem adFloating_of_step {s t : State} (hi : s.Inv) (h : step s = .next t) (hc : t.blk.controlOn = false) :
    t.blk.lines.ad.driven = 0 := by
  cases controlEdge_of_step hi h with
  | reset rst blk => rw [blk]; rfl
  | drive rst off before own on lines => simp [on] at hc
  | float accepted before own off lines => rw [lines]; rfl
  | keep rst notRelease own on lines still =>
    have hs : s.blk.controlOn = false := on ▸ hc
    rw [still hs]
    exact hi.adFloating hs

/-- Every edge that leaves the control lines off leaves every switchable line floating (R34). -/
theorem allFloating_of_step {s t : State} (hi : s.Inv) (h : step s = .next t) (hc : t.blk.controlOn = false) :
    t.blk.lines.allFloating :=
  Lines.allFloating_of_controlDir (Block.controlDir_of_off hc ▸ controlDir_of_step hi h) (adFloating_of_step hi h hc)

/-- The control lines turn on exactly at the edge where `OWN` becomes `Held` (R35). -/
theorem controlOn_turns_on_iff {s t : State} (hi : s.Inv) (h : step s = .next t) (hs : s.blk.controlOn = false) :
    t.blk.controlOn = true ↔ s.blk.own ≠ .held ∧ t.blk.own = .held := by
  cases controlEdge_of_step hi h with
  | reset rst blk => simp [blk, Block.controlOn, Block.reset]
  | drive rst off before own on lines => simp [before, own, on]
  | float accepted before own off lines => simp [before, off]
  | keep rst notRelease own on lines still => simpa [on, hs] using fun hn ht => hn (own ht)

/-- The control lines turn off exactly at reset and where `RELEASE` is accepted (R35). -/
theorem controlOn_turns_off_iff {s t : State} (hi : s.Inv) (h : step s = .next t) (hs : s.blk.controlOn = true) :
    t.blk.controlOn = false ↔ s.host.pins.rst = true ∨ s.Accepts .release := by
  cases controlEdge_of_step hi h with
  | reset rst blk => simp [blk, rst, Block.controlOn, Block.reset]
  | drive rst off before own on lines => simp [hs] at off
  | float accepted before own off lines => simp [accepted, off]
  | keep rst notRelease own on lines still => simp [on, hs, rst, notRelease hs]

/-- The edge where `OWN` becomes `Held` drives the control lines at their idle levels (R35, R75). -/
theorem lines_of_grant {s t : State} (hi : s.Inv) (h : step s = .next t) (hs : s.blk.own ≠ .held)
    (ht : t.blk.own = .held) : t.blk.lines = s.blk.lines.driveControl := by
  cases controlEdge_of_step hi h with
  | reset rst blk => simp [blk, Block.reset] at ht
  | drive rst off before own on lines => exact lines
  | float accepted before own off lines => exact absurd before hs
  | keep rst notRelease own on lines still => exact absurd (own ht) hs

/-- Every edge leaves `WR_n`, `IO_M` and `DT_R` at their idle levels (R29). -/
theorem idleLevels_of_step {s t : State} (hi : s.Inv) (h : step s = .next t) :
    t.blk.lines.wrN.out = true ∧ t.blk.lines.ioM.out = false ∧ t.blk.lines.dtR.out = false := by
  cases controlEdge_of_step hi h with
  | reset rst blk => rw [blk]; exact ⟨rfl, rfl, rfl⟩
  | drive rst off before own on lines => rw [lines]; exact ⟨rfl, rfl, rfl⟩
  | float accepted before own off lines => rw [lines]; exact ⟨hi.wrOut, hi.ioOut, hi.dtOut⟩
  | keep rst notRelease own on lines still =>
    rw [lines.wrN, lines.ioM, lines.dtR]
    exact ⟨hi.wrOut, hi.ioOut, hi.dtOut⟩

theorem Block.dir_ale_driven_iff {b : Block} (h : b.lines.ControlDir b.controlDir) :
    b.lines.dir .ale = .driven ↔ b.controlOn = true := by
  rw [show b.lines.dir .ale = b.controlDir from h.ale]
  simp [Block.controlDir]

theorem Block.dir_ale_floating_iff {b : Block} (h : b.lines.ControlDir b.controlDir) :
    b.lines.dir .ale = .floating ↔ b.controlOn = false := by
  rw [show b.lines.dir .ale = b.controlDir from h.ale]
  simp [Block.controlDir]

/-! ## The obligations -/

/-- Settles O15: wherever the control lines are off, every switchable line floats; and they are off while the bus is not
held, at an accepted `RELEASE` and while `RELEASE` waits. -/
theorem linesFloatUnlessHeld : Obligations.LinesFloatUnlessHeld := by
  intro s t hi h
  refine ⟨fun ho => ?_, fun ha ho => ?_, fun hp => ?_⟩ <;> apply allFloating_of_step hi h
  · exact Block.controlOff_of_own ho
  · cases hs : s.blk.controlOn with
    | true => exact (controlOn_turns_off_iff hi h hs).mpr (.inr ha)
    | false => simp [Block.controlOn, ho, ha.idle, Phase.releasing] at hs
  · apply Block.controlOff_of_releasing
    rcases hp with hp | hp <;> rw [hp] <;> rfl

/-- Settles O16: no control edge moves the three levels off the ones the invariant gives. -/
theorem neverWritesNorSelectsIo : Obligations.NeverWritesNorSelectsIo :=
  fun _ _ hi h => idleLevels_of_step hi h

/-- Settles O17: `ALE`'s direction says whether the control lines are on, before the edge and after it. -/
theorem controlLinesMoveTogether : Obligations.ControlLinesMoveTogether := by
  intro s t hi h
  have hd := controlDir_of_step hi h
  refine ⟨?_, fun hs => ?_, fun hs ht => ?_, fun hs => ?_⟩
  · simp [Lines.dir, hd.ale, hd.denN, hd.dtR, hd.ioM, hd.rdN, hd.wrN]
  · rw [Block.dir_ale_driven_iff hd]
    exact controlOn_turns_on_iff hi h ((Block.dir_ale_floating_iff hi.controlDir).mp hs)
  · rw [lines_of_grant hi h hs ht]
    exact ⟨rfl, rfl, rfl, rfl, rfl, rfl, rfl⟩
  · rw [Block.dir_ale_floating_iff hd]
    exact controlOn_turns_off_iff hi h ((Block.dir_ale_driven_iff hi.controlDir).mp hs)

/-- Settles O18: of the edges of the bus only these four change `OWN`; the invariant gives `OWN` and `HOLD` in the two
waiting phases. -/
theorem ownershipTransitions : Obligations.OwnershipTransitions := by
  intro s t hi h hne
  cases busEdge_of_step h with
  | reset rst blk => exact .inl ⟨rst, by rw [blk]; rfl⟩
  | request accepted before own ph lines => exact .inr (.inl ⟨before, own, accepted⟩)
  | grant rst waiting ack own ph lines =>
    exact .inr (.inr (.inl ⟨hi.requested.mpr waiting, own, waiting, ack⟩))
  | letGo accepted before own ph lines => exact absurd (own.trans before.symm) hne
  | withdraw rst waiting noAck own ph lines =>
    have hheld : s.blk.own = .held := hi.held (.inr (congrArg Phase.releasing waiting))
    exact .inr (.inr (.inr ⟨hheld, own, waiting, noAck, by simp [hi.hold, waiting]⟩))
  | cycle rst running notRelease own releasing lines => exact absurd own hne
  | still rst notRelease own releasing lines => exact absurd own hne

end Sys2Proof.Machine
end

section
/-! PROOFS. What the block does not read: the port where it is not ready (R41), the pin `HLDA` where it takes no sample (R30,
R31), and `ERR` (R39). Each is a field replaced before the edge; the changed machine's edge is the other's, changed. -/

namespace Sys2Proof.Machine

/-! ## Replacing what is not read -/

/-- The machine with another host and another `ERR`. -/
def State.vary (s : State) (p : HostPort) (e : Bool) : State :=
  { s with blk := { s.blk with err := e }, host := p }

/-- The machine with another level at the pin `HLDA`. -/
def State.withPin (s : State) (h : Level) : State := { s with target := { s.target with hlda := h } }

/-- The machine with other data in `DATA` and in the response. -/
def State.withSample (s : State) (d r : Byte) : State := { s with blk := { s.blk with data := d, rspData := r } }

theorem exists_withSample {s t : State} (h : s = t) : ∃ d r, s = t.withSample d r :=
  ⟨t.blk.data, t.blk.rspData, h⟩

/-- A counting phase commutes with a change that its counter does not see and its transition keeps. -/
theorem countdown_comm {s : State} {f k : State → State} (hc : (k s).blk.cnt = s.blk.cnt)
    (hd : { k s with blk := { (k s).blk with cnt := s.blk.cnt - 1 } } =
      k { s with blk := { s.blk with cnt := s.blk.cnt - 1 } })
    (hf : f (k s) = k (f s)) : (k s).countdown f = k (s.countdown f) := by
  by_cases h0 : s.blk.cnt = 0
  · rw [countdown_of_zero (hc.trans h0), countdown_of_zero h0, hf]
  · rw [countdown_of_pos (hc ▸ h0), countdown_of_pos h0, hc, hd]

/-! ## The port and `ERR` -/

/-- A performed command reads neither the port nor `ERR`. -/
theorem perform_vary (s : State) (p : HostPort) (e : Bool) (i : Instr) :
    (s.vary p e).perform i = (s.perform i).vary p e := by
  cases i <;> rfl

/-- The phase in progress reads neither the port nor `ERR`. -/
theorem phaseEdge_vary (s : State) (p : HostPort) (e : Bool) :
    (s.vary p e).phaseEdge = s.phaseEdge.vary p e := by
  have hack : (s.vary p e).ackSeen = s.ackSeen := rfl
  unfold State.phaseEdge
  rw [show (s.vary p e).blk.ph = s.blk.ph from rfl]
  cases s.blk.ph with
  | idle | relHold => rfl
  | acqWait | relWait =>
    simp only [State.acqWaitEdge, State.relWaitEdge, hack]
    split <;> rfl
  | _ => exact countdown_comm (k := (State.vary · p e)) rfl rfl rfl

/-! ## The pin -/

/-- A performed command reads the pin in its sample only. -/
theorem perform_withPin (s : State) (h : Level) (i : Instr) :
    ∃ d r, (s.withPin h).perform i = ((s.perform i).withPin h).withSample d r := by
  cases i with
  | sample => exact ⟨_, _, rfl⟩
  | _ => exact exists_withSample rfl

/-- The phase in progress reads the pin in its sample only. -/
theorem phaseEdge_withPin (s : State) (h : Level) :
    ∃ d r, (s.withPin h).phaseEdge = (s.phaseEdge.withPin h).withSample d r := by
  have hack : (s.withPin h).ackSeen = s.ackSeen := rfl
  unfold State.phaseEdge
  rw [show (s.withPin h).blk.ph = s.blk.ph from rfl]
  cases s.blk.ph with
  | idle | relHold => exact exists_withSample rfl
  | acqWait | relWait =>
    simp only [State.acqWaitEdge, State.relWaitEdge, hack]
    split <;> exact exists_withSample rfl
  | rcSettle =>
    dsimp only
    by_cases h0 : s.blk.cnt = 0
    · rw [countdown_of_zero h0, countdown_of_zero (s := s.withPin h) h0]
      exact ⟨_, _, rfl⟩
    · rw [countdown_of_pos h0, countdown_of_pos (s := s.withPin h) h0]
      exact exists_withSample rfl
  | _ => exact exists_withSample (countdown_comm (k := (State.withPin · h)) rfl rfl rfl)

/-! ## `ERR` over an edge (R39) -/

/-- Only a rejection sets `ERR`: a performed command keeps it. -/
theorem perform_err (s : State) (i : Instr) : (s.perform i).blk.err = s.blk.err := by
  cases i <;> rfl

theorem cycleEnd_err (s : State) : s.cycleEnd.blk.err = s.blk.err := by
  unfold State.cycleEnd
  split <;> rfl

theorem countdown_err {s : State} {f : State → State} (hf : (f s).blk.err = s.blk.err) :
    (s.countdown f).blk.err = s.blk.err := by
  unfold State.countdown
  split
  · exact hf
  · rfl

/-- The phase in progress keeps `ERR`. -/
theorem phaseEdge_err (s : State) : s.phaseEdge.blk.err = s.blk.err := by
  rcases phaseEdge_kinds s with ⟨-, he⟩ | ⟨-, he⟩ | ⟨-, he⟩ | ⟨-, he⟩ | ⟨-, he⟩ <;> rw [he]
  · unfold State.acqWaitEdge
    split <;> rfl
  · rfl
  · unfold State.relWaitEdge
    split <;> rfl
  · exact countdown_err (cycleEnd_err s)

theorem rejects_iff {s : State} :
    s.rejects = true ↔ s.accepts = true ∧ ∃ c, rejectCode s.host.pins.cmdWord s.blk.own = some c := by
  simp [State.rejects, Option.isSome_iff_exists]

/-- Without reset, `ERR` is set exactly by a rejection and is never cleared. -/
theorem err_of_step {s t : State} (hr : s.host.pins.rst = false) (h : step s = .next t) :
    t.blk.err = true ↔ s.blk.err = true ∨ s.rejects = true := by
  rw [rejects_iff]
  rcases step_kinds h with ⟨hr', -⟩ | ⟨c, ha, hc, rfl⟩ | ⟨i, -, -, hn, rfl⟩ | ⟨ha, -, rfl⟩
  · simp [hr] at hr'
  · simp [ha, hc]
  · simp [perform_err, hn]
  · simp [phaseEdge_err, ha]

/-! ## A varied edge -/

theorem environment_vary {s : State} (u : State) {p : HostPort} {e : Bool} (e' : Bool)
    (ha : (s.vary p e).accepts = s.accepts) :
    (s.vary p e).environment (u.vary p e') = (s.environment u).vary (p.following s.accepts) e' := by
  rw [← ha]
  rfl

/-- Another port and another `ERR` change nothing but the host and `ERR`, as long as they bring the same reset and the same
accepted word. -/
theorem step_vary {s t : State} {p : HostPort} {e : Bool} (hr : p.pins.rst = s.host.pins.rst)
    (ha : (s.vary p e).accepts = s.accepts) (hw : s.accepts = true → p.pins.cmdWord = s.host.pins.cmdWord)
    (h : step s = .next t) :
    ∃ e', step (s.vary p e) = .next (t.vary (p.following s.accepts) e') ∧ (e = s.blk.err → e' = t.blk.err) := by
  rcases step_kinds h with ⟨hrst, rfl⟩ | ⟨c, hacc, hc, rfl⟩ | ⟨i, ⟨hacc, hd⟩, hok, -, rfl⟩ | ⟨hacc, hrst, rfl⟩
  · refine ⟨false, ?_, fun _ => rfl⟩
    rw [step_of_rst (s := s.vary p e) (hr.trans hrst), ← environment_vary _ _ ha]
    rfl
  · refine ⟨true, ?_, fun _ => rfl⟩
    rw [← hw hacc] at hc
    rw [step_of_accepts (s := s.vary p e) (ha.trans hacc) (dispatch_of_rejectCode hc), ← environment_vary _ _ ha]
    rfl
  · refine ⟨e, ?_, fun he => he.trans (perform_err s.quiet i).symm⟩
    rw [← hw hacc] at hd
    rw [step_of_accepts (s := s.vary p e) (ha.trans hacc) (dispatch_of_stateOk hd hok), ← environment_vary _ _ ha,
      show (s.vary p e).quiet = s.quiet.vary p e from rfl, perform_vary]
    rfl
  · refine ⟨e, ?_, fun he => he.trans (phaseEdge_err s.quiet).symm⟩
    rw [step_of_phase (s := s.vary p e) (hr.trans hrst) (ha.trans hacc), ← environment_vary _ _ ha,
      show (s.vary p e).quiet = s.quiet.vary p e from rfl, phaseEdge_vary]
    rfl

/-- Without reset, the two flip-flops of the synchroniser shift (R30). -/
theorem sync_of_step {s t : State} (hr : s.host.pins.rst = false) (h : step s = .next t) :
    t.blk.s1 = s.target.hlda ∧ t.blk.s2 = s.blk.s1 := by
  rcases step_cases h with ⟨hr', -⟩ | ⟨-, -, -, u, hu, rfl⟩ | ⟨-, -, rfl⟩
  · simp [hr] at hr'
  · obtain ⟨b, r, hd, hs1, -⟩ := dispatch_answers s.host.pins.cmdWord s.quiet
    cases hd.symm.trans hu
    exact ⟨rfl, hs1⟩
  · obtain ⟨b, r, hd, hs1, -⟩ := phaseEdge_shape s.quiet
    rw [hd]
    exact ⟨rfl, hs1⟩

/-- Without reset, another level at the pin changes nothing of the block but the first flip-flop and what is sampled (R30). -/
theorem step_withPin {s t : State} (h : Level) (hr : s.host.pins.rst = false) (hs : step s = .next t) :
    ∃ t' d r, step (s.withPin h) = .next t' ∧ t'.blk = { t.blk with s1 := h, data := d, rspData := r } := by
  rcases step_kinds hs with ⟨hr', -⟩ | ⟨c, ha, hc, rfl⟩ | ⟨i, ⟨ha, hd⟩, hok, -, rfl⟩ | ⟨ha, -, rfl⟩
  · simp [hr] at hr'
  · exact ⟨_, _, _, step_of_accepts (s := s.withPin h) ha (dispatch_of_rejectCode hc), rfl⟩
  · obtain ⟨d, r, he⟩ := perform_withPin s.quiet h i
    refine ⟨_, d, r, step_of_accepts (s := s.withPin h) ha (dispatch_of_stateOk hd hok), ?_⟩
    rw [show (s.withPin h).quiet = s.quiet.withPin h from rfl, he]
    rfl
  · obtain ⟨d, r, he⟩ := phaseEdge_withPin s.quiet h
    refine ⟨_, d, r, step_of_phase (s := s.withPin h) hr ha, ?_⟩
    rw [show (s.withPin h).quiet = s.quiet.withPin h from rfl, he]
    rfl

theorem cmdReady_iff {s : State} : s.cmdReady = true ↔ s.blk.ph = .idle ∧ s.host.pins.rst = false := by
  simp [State.cmdReady]

/-- A block that is not ready accepts nothing (R41). -/
theorem accepts_of_not_cmdReady {s : State} (h : s.cmdReady = false) : s.accepts = false := by
  simp [State.accepts, h]

/-- Nor does it with another word on the port. -/
theorem accepts_vary_of_not_cmdReady {s : State} {p : HostPort} {e : Bool} (h : s.cmdReady = false)
    (hr : p.pins.rst = s.host.pins.rst) : (s.vary p e).accepts = s.accepts := by
  have hv : (s.vary p e).cmdReady = s.cmdReady := congrArg (fun r => decide (s.blk.ph = .idle) && !r) hr
  rw [accepts_of_not_cmdReady h, accepts_of_not_cmdReady (hv.trans h)]

/-! ## The obligations -/

/-- Settles O9: a block that is not ready accepts no word, so a varied port changes only the host. -/
theorem wordIgnoredWhenNotReady : Obligations.WordIgnoredWhenNotReady := by
  refine ⟨fun s => cmdReady_iff, fun s t hv hc hd => step_of_accepts (by simp [State.accepts, hv, hc]) hd, ?_⟩
  intro s t t' v w hc h h'
  have hacc : s.accepts = false := accepts_of_not_cmdReady hc
  obtain ⟨e', he, herr⟩ := step_vary (e := s.blk.err)
    (p := { s.host with pins := { s.host.pins with cmdValid := v, cmdWord := w } })
    rfl (accepts_vary_of_not_cmdReady hc rfl) (by simp [hacc]) h
  injection h'.symm.trans he with ht
  subst ht
  rw [herr rfl]
  exact ⟨rfl, rfl, rfl⟩

/-- Settles O20: the pin reaches the first flip-flop and the samples, and nothing else. -/
theorem synchroniserShifts : Obligations.SynchroniserShifts := by
  intro s t t' h hr hs hs'
  obtain ⟨hs1, hs2⟩ := sync_of_step hr hs
  obtain ⟨u, d, r, hu, hblk⟩ := step_withPin h hr hs
  injection hs'.symm.trans hu with ht
  subst ht
  refine ⟨hs1, hs2, ?_⟩
  rw [hblk]

/-- Settles O21: only a rejection sets `ERR`, reset clears it, and an edge from the other `ERR` is the same edge. -/
theorem errIsStickyAndOnlyRecords : Obligations.ErrIsStickyAndOnlyRecords := by
  intro s t t' h
  refine ⟨fun hr => err_of_step hr h, fun hr => ?_, fun h' => ?_⟩
  · rw [step_of_rst hr] at h
    cases h
    rfl
  · obtain ⟨e', he, -⟩ := step_vary (p := s.host) (e := !s.blk.err) rfl rfl (fun _ => rfl) h
    injection h'.symm.trans he with ht
    rw [← host_of_step h] at ht
    subst ht
    rfl

/-! ## Views -/

/-- Settles O11: with the control lines floating and no address line driven, every line floats; the rest is read off. -/
theorem resetStateIsTheTable : Obligations.ResetStateIsTheTable := by
  have hf : State.reset.blk.lines.allFloating := Lines.allFloating_of_controlDir Lines.reset_controlDir rfl
  have had (i : Fin 20) : State.reset.blk.lines.out (.ad i) = false := BitVec.getLsbD_zero
  exact ⟨rfl, rfl, hf, had, rfl, rfl, rfl, rfl, rfl, rfl, rfl, rfl, rfl, rfl, rfl, rfl, rfl, rfl, rfl, rfl, rfl, rfl⟩

/-- A bit of `STATUS`: it lies in the code of `OWN`, or is a one-bit field, or is 0 (R38). -/
theorem status_getLsbD (s : State) (k : Nat) :
    s.status.getLsbD k =
      if k < 2 then s.blk.own.code.getLsbD k
      else [s.busy, s.blk.err, s.blk.holdO, s.blk.s2].getD (k - 2) false := by
  have h : s.status.getLsbD k = (0b00#2 ++ BitVec.ofBool s.blk.s2 ++ BitVec.ofBool s.blk.holdO ++
      BitVec.ofBool s.blk.err ++ BitVec.ofBool s.busy ++ s.blk.own.code).getLsbD k := rfl
  rw [h]
  simp only [BitVec.getLsbD_append]
  match k with
  | 0 | 1 | 2 | 3 | 4 | 5 => simp
  | k + 6 => simp

/-- Settles O19: the code of `OWN` is the low end of the byte, and every other field is found bit by bit. -/
theorem statusFields : Obligations.StatusFields := by
  refine ⟨fun s => ⟨BitVec.extractLsb'_append_eq_right, ?_, ?_, ?_, ?_, ?_⟩, rfl, rfl, rfl, rfl⟩
  · rw [status_getLsbD]
    simp [State.busy]
  · exact status_getLsbD s 3
  · exact status_getLsbD s 4
  · exact status_getLsbD s 5
  · ext k hk
    rw [BitVec.getElem_extractLsb', status_getLsbD]
    interval_cases k <;> simp

end Sys2Proof.Machine
end

section
/-! PROOFS. The address through a `READ` (R52): what an edge that leaves the block in a `READ` can be, what it keeps of
`AD[19:0]` and `OPND`, and what the address latch takes at the falling edge of `ALE` (R45). -/

namespace Sys2Proof.Machine

/-! ## The phases of a `READ` in groups (R88) -/

/-- A `READ` drives all 20 address lines, or the high 12 (R52, R88, R92). -/
theorem reading_iff {p : Phase} : p.reading = true ↔ p.fullAddress = true ∨ p.highAddress = true := by
  cases p <;> decide

theorem reading_of_latched {p : Phase} (h : p.latched = true) : p.reading = true := by
  revert h
  cases p <;> decide

theorem fullAddress_iff {p : Phase} : p.fullAddress = true ↔ p = .rcAleHi ∨ p = .rcAleLo ∨ p = .rcFloat := by
  cases p <;> decide

/-! ## An edge that leaves the block in a `READ` -/

/-- What an edge does that leaves the block in a phase of `READ` (R88, R89). -/
inductive ReadEdge (s t : State) : Prop
  /-- T1: an accepted `READ` (R90). -/
  | start (a : Addr) (accepted : s.Accepts (.read a)) (ph : t.blk.ph = .rcAleHi) (opnd : t.blk.opnd = a)
      (lines : t.blk.lines = s.blk.lines.driveAddress a)
  /-- A phase that only counts. -/
  | count (running : s.blk.ph.reading = true) (left : s.blk.cnt ≠ 0) (cnt : t.blk.cnt = s.blk.cnt - 1)
      (ph : t.blk.ph = s.blk.ph) (opnd : t.blk.opnd = s.blk.opnd) (lines : t.blk.lines = s.blk.lines)
      (latch : t.board.latch = s.board.latch)
  /-- T2 to T8: a phase at its end. -/
  | advance (running : s.blk.ph.reading = true) (done : s.blk.cnt = 0)
      (next : t = s.environment s.quiet.cycleEnd.syncShift)

/-- The phase in progress leaves the block in a phase of `READ` only where it is one itself (R43). -/
theorem phaseEdge_into_reading {s : State} (h : s.phaseEdge.blk.ph.reading = true) :
    s.blk.ph.reading = true ∧ s.phaseEdge = s.countdown State.cycleEnd := by
  rcases phaseEdge_kinds s with ⟨hp, he⟩ | ⟨hp, he⟩ | ⟨-, he⟩ | ⟨hp, he⟩ | hread
  · rw [he, hp] at h; cases h
  · cases h2 : s.blk.s2 with
    | false => rw [he, acqWaitEdge_of_noAck h2, hp] at h; cases h
    | true => rw [he, acqWaitEdge_of_ack h2] at h; cases h
  · rw [he] at h; cases h
  · cases h2 : s.blk.s2 with
    | false => rw [he, relWaitEdge_of_noAck h2] at h; cases h
    | true => rw [he, relWaitEdge_of_ack h2, hp] at h; cases h
  · exact hread

/-- Every edge that leaves the block in a phase of `READ` is one of these. -/
theorem readEdge_of_step {s t : State} (h : step s = .next t) (hr : t.blk.ph.reading = true) : ReadEdge s t := by
  have hidle (ha : s.accepts = true) : s.blk.ph.reading ≠ true := by simp [(accepts_iff.mp ha).2.1, Phase.reading]
  rcases step_kinds h with ⟨-, rfl⟩ | ⟨c, ha, -, rfl⟩ | ⟨i, ha, -, -, rfl⟩ | ⟨-, -, rfl⟩
  · cases hr
  · exact absurd hr (hidle ha)
  · cases i with
    | read a => exact .start a ha rfl rfl rfl
    | acquire | release => cases hr
    | drive | float | sample | setsettle => exact absurd hr (hidle ha.1)
  · obtain ⟨hs, he⟩ := phaseEdge_into_reading (s := s.quiet) hr
    rw [he]
    by_cases hc : s.quiet.blk.cnt = 0
    · rw [countdown_of_zero hc]
      exact .advance hs hc rfl
    · rw [countdown_of_pos hc]
      exact .count hs hc rfl rfl rfl rfl (latchAfter_of_ale rfl)

/-! ## What T2 to T9 do to the address -/

/-- No transition of a `READ` writes `OPND`, a level of `AD[19:0]` or, of itself, the latch (R88). -/
theorem cycleEnd_keeps_address (s : State) :
    s.cycleEnd.blk.opnd = s.blk.opnd ∧ s.cycleEnd.blk.lines.ad.out = s.blk.lines.ad.out ∧
      s.cycleEnd.board.latch = s.board.latch := by
  unfold State.cycleEnd
  cases s.blk.ph <;> exact ⟨rfl, rfl, rfl⟩

/-- A transition into a phase before T4 comes from one, and floats no address line (R88). -/
theorem cycleEnd_fullAddress {s : State} (h : s.cycleEnd.blk.ph.fullAddress = true) :
    s.blk.ph.fullAddress = true ∧ s.cycleEnd.blk.lines.ad = s.blk.lines.ad := by
  revert h
  unfold State.cycleEnd
  cases hp : s.blk.ph with
  | rcAleHi | rcAleLo => exact fun _ => ⟨rfl, rfl⟩
  | idle | acqWait | relHold | relWait => simp [hp, Phase.fullAddress]
  | rcFloat | rcRdOn | rcDenOn | rcSettle | rcDenOff | rcRdOff => exact nofun

/-- A transition into a phase from T4 on is T4, which floats the low byte, or leaves the address lines (R92). -/
theorem cycleEnd_highAddress {s : State} (h : s.cycleEnd.blk.ph.highAddress = true) :
    (s.blk.ph = .rcFloat ∧ s.cycleEnd.blk.lines.ad = s.blk.lines.floatLow.ad) ∨
    (s.blk.ph.highAddress = true ∧ s.cycleEnd.blk.lines.ad = s.blk.lines.ad) := by
  revert h
  unfold State.cycleEnd
  cases hp : s.blk.ph with
  | rcFloat => exact fun _ => .inl ⟨rfl, rfl⟩
  | rcRdOn | rcDenOn | rcSettle | rcDenOff => exact fun _ => .inr ⟨rfl, rfl⟩
  | idle | acqWait | relHold | relWait => simp [hp, Phase.highAddress]
  | rcAleHi | rcAleLo | rcRdOff => exact nofun

/-- A transition into a phase from T3 on is T3, which lowers `ALE`, or leaves `ALE` (R91). -/
theorem cycleEnd_latched {s : State} (h : s.cycleEnd.blk.ph.latched = true) :
    (s.blk.ph = .rcAleLo ∧ s.cycleEnd.blk.lines.ale = ⟨s.blk.lines.ale.dir, Config.aleIdle⟩) ∨
    (s.blk.ph.latched = true ∧ s.cycleEnd.blk.lines.ale = s.blk.lines.ale) := by
  revert h
  unfold State.cycleEnd
  cases hp : s.blk.ph with
  | rcAleLo => exact fun _ => .inl ⟨rfl, rfl⟩
  | rcFloat | rcRdOn | rcDenOn | rcSettle | rcDenOff => exact fun _ => .inr ⟨rfl, rfl⟩
  | idle | acqWait | relHold | relWait => simp [hp, Phase.latched]
  | rcAleHi | rcRdOff => exact nofun

/-! ## What the latch takes (R45) -/

/-- With all 20 lines driven, the levels at the pins are the block's (R31). -/
theorem adPins_of_full {s : State} (h : s.blk.lines.ad.driven = 0xFFFFF) : s.adPins = s.blk.lines.ad.out := by
  simp [State.adPins, h]

/-- The falling edge of `ALE` captures the levels at the pins (R45). -/
theorem latchAfter_of_fall {s t : State} (hs : s.blk.lines.ale = ⟨.driven, true⟩)
    (ht : t.blk.lines.ale = ⟨.driven, false⟩) : latchAfter s t = s.adPins :=
  if_pos (by rw [hs, ht]; rfl)

/-- While `ALE` is high in a `READ`, the block drives it (R35, R91). -/
theorem State.Inv.ale_of_rcAleLo {s : State} (hi : s.Inv) (h : s.blk.ph = .rcAleLo) :
    s.blk.lines.ale = ⟨.driven, true⟩ := by
  have hon : s.blk.controlOn = true := hi.controlOn_of_running (.inl (congrArg Phase.reading h))
  have hd : s.blk.lines.ale.dir = .driven := hi.aleDir.trans (Block.controlDir_of_on hon)
  have ho : s.blk.lines.ale.out = true := by simp [hi.aleOut, h]
  cases hl : s.blk.lines.ale
  simp_all

/-! ## The address through the cycle (R52) -/

/-- The address lines and the latch carry the operand, phase by phase (R52, R88, R92). -/
structure State.CarriesOperand (s : State) : Prop where
  full : s.blk.ph.fullAddress = true → s.blk.lines.ad.driven = 0xFFFFF
  high : s.blk.ph.highAddress = true → s.blk.lines.ad.driven = 0xFFF00
  out : s.blk.ph.reading = true → s.blk.lines.ad.out = s.blk.opnd
  latch : s.blk.ph.latched = true → s.board.latch = s.blk.opnd

theorem State.Inv.carriesOperand {s : State} (hi : s.Inv) : s.CarriesOperand :=
  ⟨hi.adFull, hi.adHigh, hi.adOut, hi.latch⟩

/-- A transition of a `READ` leaves the operand on the lines and, from T3 on, in the latch (R52). -/
theorem carriesOperand_of_advance {s t : State} (hi : s.Inv) (hr : s.blk.ph.reading = true)
    (ht : t = s.environment s.quiet.cycleEnd.syncShift) : t.CarriesOperand := by
  obtain ⟨hopnd, hout, hlatch⟩ := cycleEnd_keeps_address s.quiet
  subst ht
  constructor
  case full =>
    intro h
    obtain ⟨hs, had⟩ := cycleEnd_fullAddress (s := s.quiet) h
    exact (congrArg AdBus.driven had).trans (hi.adFull hs)
  case high =>
    intro h
    rcases cycleEnd_highAddress (s := s.quiet) h with ⟨hs, had⟩ | ⟨hs, had⟩
    · have hf : s.blk.lines.ad.driven = 0xFFFFF := hi.adFull (congrArg Phase.fullAddress hs)
      exact (congrArg AdBus.driven had).trans (by simp [hf])
    · exact (congrArg AdBus.driven had).trans (hi.adHigh hs)
  case out =>
    intro _
    exact hout.trans ((hi.adOut hr).trans hopnd.symm)
  case latch =>
    intro h
    refine Eq.trans ?_ hopnd.symm
    rcases cycleEnd_latched (s := s.quiet) h with ⟨hs, hale⟩ | ⟨hs, hale⟩
    · have hbefore := hi.ale_of_rcAleLo hs
      have hfull : s.blk.lines.ad.driven = 0xFFFFF := hi.adFull (congrArg Phase.fullAddress hs)
      calc latchAfter s s.quiet.cycleEnd.syncShift
        _ = s.adPins := latchAfter_of_fall hbefore (hale.trans (by simp [hbefore]))
        _ = s.blk.lines.ad.out := adPins_of_full hfull
        _ = s.blk.opnd := hi.adOut hr
    · exact (latchAfter_of_ale hale).trans (hlatch.trans (hi.latch hs))

/-- Every edge from a state of the invariant leaves the operand carried (R52). -/
theorem carriesOperand_of_step {s t : State} (hi : s.Inv) (h : step s = .next t) : t.CarriesOperand := by
  by_cases hr : t.blk.ph.reading = true
  · cases readEdge_of_step h hr with
    | start a accepted ph opnd lines =>
      exact ⟨fun _ => by rw [lines]; rfl, by simp [ph, Phase.highAddress], fun _ => by rw [lines, opnd]; rfl,
        by simp [ph, Phase.latched]⟩
    | count running left cnt ph opnd lines latch =>
      obtain ⟨hfull, hhigh, hout, hlatch⟩ := hi.carriesOperand
      constructor <;> rw [ph]
      · rwa [lines]
      · rwa [lines]
      · rwa [lines, opnd]
      · rwa [latch, opnd]
    | advance running done next => exact carriesOperand_of_advance hi running next
  · exact ⟨fun hf => absurd (reading_iff.mpr (.inl hf)) hr, fun hh => absurd (reading_iff.mpr (.inr hh)) hr,
      fun h' => absurd h' hr, fun hl => absurd (reading_of_latched hl) hr⟩

/-! ## The lines one by one -/

theorem Lines.dir_ad_of_full {l : Lines} (h : l.ad.driven = 0xFFFFF) (i : Fin 20) : l.dir (.ad i) = .driven := by
  have hbit : ∀ i : Fin 20, (0xFFFFF#20).getLsbD i = true := by decide
  exact if_pos (h ▸ hbit i)

theorem Lines.dir_ad_of_high {l : Lines} (h : l.ad.driven = 0xFFF00) {i : Fin 20} (h8 : 8 ≤ i.val) :
    l.dir (.ad i) = .driven := by
  have hbit : ∀ i : Fin 20, 8 ≤ i.val → (0xFFF00#20).getLsbD i = true := by decide
  exact if_pos (h ▸ hbit i h8)

/-- Settles O48, from what every edge leaves on the lines and in the latch. -/
theorem deviceSeesTheOperand : Obligations.DeviceSeesTheOperand := by
  intro s t hi h
  obtain ⟨hfull, hhigh, hout, hlatch⟩ := carriesOperand_of_step hi h
  have hbits (hr : t.blk.ph.reading = true) (i : Fin 20) : t.blk.lines.out (.ad i) = t.blk.opnd.getLsbD i :=
    congrArg (·.getLsbD i) (hout hr)
  refine ⟨fun hp i => ?_, hlatch, fun hr i h8 => ⟨?_, hbits hr i⟩⟩
  · have hf := fullAddress_iff.mpr hp
    exact ⟨Lines.dir_ad_of_full (hfull hf) i, hbits (reading_iff.mpr (.inl hf)) i⟩
  · rcases reading_iff.mp hr with hf | hh
    · exact Lines.dir_ad_of_full (hfull hf) i
    · exact Lines.dir_ad_of_high (hhigh hh) h8

end Sys2Proof.Machine
end

section
/-! PROOFS. Arbitration (40_arbitration.md): the waits of `ACQUIRE` and `RELEASE` that nothing ends (R76, R80), and the order
in which `RELEASE` gives up the lines and `HOLD` (R79). -/

namespace Sys2Proof.Machine

/-! ## A wait whose acknowledgement never changes (R76, R80) -/

/-- The phase that waits as long as `Sync(HLDA)` is at `v`: `ACQUIRE` for the acknowledgement, `RELEASE` for its
withdrawal. -/
def Phase.waitingAt : Level → Phase
  | false => .acqWait
  | true => .relWait

/-- The block waits in such a phase, with `v` in both flip-flops of the synchroniser and no response shown. -/
structure Block.Waits (b : Block) (v : Level) : Prop where
  ph : b.ph = Phase.waitingAt v
  s1 : b.s1 = v
  s2 : b.s2 = v
  noResponse : b.rspValid = false

theorem waitingAt_ne_idle (v : Level) : Phase.waitingAt v ≠ .idle := by
  cases v <;> decide

/-- A waiting phase does nothing while `Sync(HLDA)` is at the level it waits at (R75, R78). -/
theorem phaseEdge_of_waiting {s : State} {v : Level} (hp : s.blk.ph = Phase.waitingAt v) (h2 : s.blk.s2 = v) :
    s.phaseEdge = s := by
  unfold State.phaseEdge
  rw [hp]
  cases v with
  | false => exact acqWaitEdge_of_noAck h2
  | true => exact relWaitEdge_of_ack h2

/-- An edge of such a wait moves the synchroniser only. -/
theorem step_of_waiting {s : State} {v : Level} (hr : s.host.pins.rst = false) (hp : s.blk.ph = Phase.waitingAt v)
    (h2 : s.blk.s2 = v) : ∃ t, step s = .next t ∧ t.blk = s.idleBlock := by
  have hbusy : s.blk.ph ≠ .idle := hp ▸ waitingAt_ne_idle v
  refine ⟨_, step_of_busy hr hbusy, ?_⟩
  rw [phaseEdge_of_waiting (s := s.quiet) hp h2]
  rfl

/-- With the pin at the level of both flip-flops, the synchroniser does not move either. -/
theorem Block.Waits.idleBlock_eq {s : State} {v : Level} (hw : s.blk.Waits v) (hpin : s.target.hlda = v) :
    s.idleBlock = s.blk := by
  obtain ⟨-, h1, h2, hn⟩ := hw
  rw [State.idleBlock, h1.trans h2.symm, hpin.trans h1.symm, ← hn]

theorem State.PinStays.hlda {s : State} {n : Nat} {v : Level} (h : s.PinStays n v) : s.target.hlda = v := by
  obtain ⟨u, hu, hv⟩ := h 0 n.zero_le
  cases hu
  exact hv

/-- A pin that stays over this edge and the `n + 1` after it stays over the next edge and the `n` after that. -/
theorem pinStays_of_step {s t : State} {n : Nat} {v : Level} (h : s.PinStays (n + 1) v) (hs : step s = .next t) :
    t.PinStays n v :=
  fun j hj => run_succ_of_step hs ▸ h (j + 1) (Nat.succ_le_succ hj)

/-- As long as the pin stays and no reset comes, a waiting block stays as it is, at every edge. -/
theorem run_of_waits {n : Nat} {s : State} {v : Level} (hw : s.blk.Waits v) (hpin : s.PinStays n v)
    (hr : s.NoReset n) : ∃ t, run n s = .next t ∧ t.blk = s.blk := by
  induction n generalizing s with
  | zero => exact ⟨s, rfl, rfl⟩
  | succ n ih =>
    obtain ⟨u, hu, hublk⟩ := step_of_waiting hr.1 hw.ph hw.s2
    have hstay : u.blk = s.blk := hublk.trans (hw.idleBlock_eq hpin.hlda)
    obtain ⟨t, ht, htblk⟩ := ih (hstay ▸ hw) (pinStays_of_step hpin hu) (noReset_of_step hr hu)
    exact ⟨t, (run_succ_of_step hu).trans ht, htblk.trans hstay⟩

theorem cmdReady_of_busy {s : State} (h : s.blk.ph ≠ .idle) : s.cmdReady = false := by
  simp [State.cmdReady, h]

/-- Settles O31: the block stays as it is in `ACQ_WAIT`, where it is not ready. -/
theorem acquireBlocksForever : Obligations.AcquireBlocksForever := by
  intro n s hp ho hh hn h1 h2 hpin hr
  obtain ⟨t, ht, hblk⟩ := run_of_waits ⟨hp, h1, h2, hn⟩ hpin hr
  have hbusy : t.blk.ph ≠ .idle := by simp [hblk, hp]
  exact ⟨t, ht, hblk ▸ hp, hblk ▸ ho, hblk ▸ hh, hblk ▸ hn, cmdReady_of_busy hbusy⟩

/-- Settles O36: the block stays as it is in `REL_WAIT`. -/
theorem releaseBlocksForever : Obligations.ReleaseBlocksForever := by
  intro n s hp ho hh hf hn h1 h2 hpin hr
  obtain ⟨t, ht, hblk⟩ := run_of_waits ⟨hp, h1, h2, hn⟩ hpin hr
  exact ⟨t, ht, hblk ▸ hp, hblk ▸ ho, hblk ▸ hh, hblk ▸ hf, hblk ▸ hn⟩

/-! ## Where `HOLD` falls (R78, R79) -/

/-- No command lowers `HOLD` at its accepting edge. -/
theorem perform_holdO {s : State} (h : s.blk.holdO = true) (i : Instr) : (s.perform i).blk.holdO = true := by
  cases i with
  | acquire => rfl
  | _ => exact h

theorem cycleEnd_holdO (s : State) : s.cycleEnd.blk.holdO = s.blk.holdO := by
  unfold State.cycleEnd
  split <;> rfl

/-- Of the phases only `REL_HOLD` writes `HOLD`. -/
theorem phaseEdge_holdO {s : State} (hp : s.blk.ph ≠ .relHold) : s.phaseEdge.blk.holdO = s.blk.holdO := by
  rcases phaseEdge_kinds s with ⟨-, he⟩ | ⟨-, he⟩ | ⟨h, -⟩ | ⟨-, he⟩ | ⟨-, he⟩
  · rw [he]
  · rw [he, State.acqWaitEdge]
    split <;> rfl
  · exact absurd h hp
  · rw [he, State.relWaitEdge]
    split <;> rfl
  · rw [he, State.countdown]
    split
    · exact cycleEnd_holdO s
    · rfl

/-- Without reset, `HOLD` falls only at the edge from `REL_HOLD` to `REL_WAIT`. -/
theorem relHold_of_hold_falls {s t : State} (h : step s = .next t) (hr : s.host.pins.rst = false)
    (hs : s.blk.holdO = true) (ht : t.blk.holdO = false) : s.blk.ph = .relHold ∧ t.blk.ph = .relWait := by
  rcases step_kinds h with ⟨hr', -⟩ | ⟨c, -, -, rfl⟩ | ⟨i, -, -, -, rfl⟩ | ⟨-, -, rfl⟩
  · simp [hr] at hr'
  · exact absurd hs (Bool.eq_false_iff.mp ht)
  · exact absurd (perform_holdO (s := s.quiet) hs i) (Bool.eq_false_iff.mp ht)
  · have hp : s.quiet.blk.ph = .relHold :=
      by_contra fun hp => Bool.eq_false_iff.mp ht ((phaseEdge_holdO hp).trans hs)
    refine ⟨hp, ?_⟩
    have he : s.quiet.phaseEdge = s.quiet.relHoldEdge := by rw [State.phaseEdge, hp]
    rw [he]
    rfl

/-- In a state of the invariant whose control lines are off, every switchable line floats (R34, R35). -/
theorem State.Inv.allFloating {s : State} (hi : s.Inv) (hc : s.blk.controlOn = false) : s.blk.lines.allFloating :=
  Lines.allFloating_of_controlDir (Block.controlDir_of_off hc ▸ hi.controlDir) (hi.adFloating hc)

/-- Settles O35: `HOLD` falls from `REL_HOLD` to `REL_WAIT`, and in both the lines are off. -/
theorem linesFloatBeforeHoldFalls : Obligations.LinesFloatBeforeHoldFalls := by
  intro s t hi h hr hs ht
  obtain ⟨hps, hpt⟩ := relHold_of_hold_falls h hr hs ht
  exact ⟨hi.allFloating (Block.controlOff_of_releasing (congrArg Phase.releasing hps)),
    allFloating_of_step hi h (Block.controlOff_of_releasing (congrArg Phase.releasing hpt))⟩

end Sys2Proof.Machine
end

section
/-! PROOFS. The address driver (41_address_driver.md): what the commands that answer at their edge can answer (R84). -/

namespace Sys2Proof.Machine

/-- A well-formed command's edge either performs it or only rejects it, as `OWN` allows it or not (R71, R115). -/
theorem exec_cases {i : Instr} {s t : State} (hw : i.wellFormed = true) (h : exec i s = .next t) :
    (stateOk i s.blk.own = true ∧ t = s.perform i) ∨ (stateOk i s.blk.own = false ∧ t = s.reject .badState) := by
  cases hok : stateOk i s.blk.own with
  | true =>
    rw [exec_of_stateOk hw hok] at h
    cases h
    exact .inl ⟨rfl, rfl⟩
  | false =>
    rw [exec_badState hok] at h
    cases h
    exact .inr ⟨rfl, rfl⟩

/-- A command that `OWN` allows exactly while `Held`, and whose performing ends in the response `(OK, 0x00)`, answers that
or the rejection, and nothing else. -/
theorem answer_of_heldCommand {i : Instr} {s t u : State} (hw : i.wellFormed = true)
    (hok : stateOk i s.blk.own = (s.blk.own == .held)) (hp : s.perform i = u.respond .ok 0)
    (h : exec i s = .next t) :
    t.blk.rspValid = true ∧ t.blk.rspData = 0 ∧
      ((s.blk.own = .held ∧ t.blk.rspStatus = .ok) ∨ (s.blk.own ≠ .held ∧ t = s.reject .badState)) := by
  rcases exec_cases hw h with ⟨hallowed, rfl⟩ | ⟨hrefused, rfl⟩
  · rw [hp]
    exact ⟨rfl, rfl, .inl ⟨by simpa [hok] using hallowed, rfl⟩⟩
  · exact ⟨rfl, rfl, .inr ⟨by simpa [hok] using hrefused, rfl⟩⟩

/-- Settles O40: both commands are allowed exactly while `Held`, and end in the response `(OK, 0x00)`. -/
theorem driveAndFloatCannotFail : Obligations.DriveAndFloatCannotFail := by
  rintro s t a (hdrive | hfloat)
  · exact answer_of_heldCommand rfl rfl rfl hdrive
  · exact answer_of_heldCommand rfl rfl rfl hfloat

end Sys2Proof.Machine
end

section
/-! PROOFS. The read cycle (43_read_cycle.md): the lines in each phase (R88, R98), what each transition T2 to T9 does,
the edge it comes at (R89, R101), and the state at each edge of a `READ` (`State.ReadAt`), which gives its end and its
trace. -/

namespace Sys2Proof.Machine

/-! ## The lines in each phase -/

/-- The lines while the bus is held and no `RELEASE` runs, in phase `p`: the strobes as R98 gives them, the rest at their
idle levels (R29); `State.Inv.lines_of_on` ties it to the machine. -/
def Phase.lines (p : Phase) (ad : AdBus) : Lines where
  ad := ad
  ale := ⟨.driven, decide (p = .rcAleLo)⟩
  denN := ⟨.driven, !p.bufferOn⟩
  dtR := ⟨.driven, false⟩
  ioM := ⟨.driven, false⟩
  rdN := ⟨.driven, !p.readStrobe⟩
  wrN := ⟨.driven, true⟩

/-- The lines of `READ a` in phase `p`; in `IDLE`, those it ends with (R88, R100). -/
def Phase.cycleLines (p : Phase) (a : Addr) : Lines := p.lines ⟨if p.fullAddress then 0xFFFFF else 0xFFF00, a⟩

theorem Line.eq_of_parts {l : Line} {d : LineDir} {v : Level} (hd : l.dir = d) (hv : l.out = v) : l = ⟨d, v⟩ := by
  subst hd hv
  rfl

/-- The invariant fixes every control line while the lines are on (R29, R35, R98). -/
theorem State.Inv.lines_of_on {s : State} (hi : s.Inv) (hon : s.blk.controlOn = true) :
    s.blk.lines = s.blk.ph.lines s.blk.lines.ad := by
  have hdir := Block.controlDir_of_on hon
  have hale := Line.eq_of_parts (hi.aleDir.trans hdir) hi.aleOut
  have hden := Line.eq_of_parts (hi.denDir.trans hdir) hi.denOut
  have hdt := Line.eq_of_parts (hi.dtDir.trans hdir) hi.dtOut
  have hio := Line.eq_of_parts (hi.ioDir.trans hdir) hi.ioOut
  have hrd := Line.eq_of_parts (hi.rdDir.trans hdir) hi.rdOut
  have hwr := Line.eq_of_parts (hi.wrDir.trans hdir) hi.wrOut
  cases hl : s.blk.lines
  simp_all [Phase.lines]

theorem Lines.dir_ad_of_low {l : Lines} (h : l.ad.driven = 0xFFF00) {i : Fin 20} (h8 : i.val < 8) :
    l.dir (.ad i) = .floating := by
  have hbit : ∀ i : Fin 20, i.val < 8 → (0xFFF00#20).getLsbD i = false := by decide
  exact if_neg (h ▸ Bool.eq_false_iff.mp (hbit i h8))

/-! ## An edge of a `READ` -/

/-- An edge in a phase of `READ` counts, or performs the phase's transition (R89). -/
theorem step_of_reading {s : State} (hr : s.host.pins.rst = false) (h : s.blk.ph.reading = true) :
    step s = .next (s.environment (s.quiet.countdown State.cycleEnd).syncShift) := by
  have hbusy : s.blk.ph ≠ .idle := fun hp => by simp [hp, Phase.reading] at h
  have hedge : s.quiet.phaseEdge = s.quiet.countdown State.cycleEnd := by
    rcases phaseEdge_kinds s.quiet with ⟨hp, -⟩ | ⟨hp, -⟩ | ⟨hp, -⟩ | ⟨hp, -⟩ | ⟨-, he⟩
    case inr.inr.inr.inr => exact he
    all_goals
      replace h := congrArg Phase.reading (show s.blk.ph = _ from hp) ▸ h
      cases h
  rw [step_of_busy hr hbusy, hedge]

/-! ## The order of the phases (R88) -/

/-- The phase after `p` in a `READ`, which ends in `IDLE` (R88, R89). -/
def Phase.after : Phase → Phase
  | .rcAleHi => .rcAleLo
  | .rcAleLo => .rcFloat
  | .rcFloat => .rcRdOn
  | .rcRdOn => .rcDenOn
  | .rcDenOn => .rcSettle
  | .rcSettle => .rcDenOff
  | .rcDenOff => .rcRdOff
  | .rcRdOff | .idle | .acqWait | .relHold | .relWait => .idle

/-- What the transition that ends phase `p` does on the lines: T2 to T9 in the words of R99. -/
def Phase.endEvent : Phase → LineEvent
  | .rcAleHi => .ale true
  | .rcAleLo => .ale false
  | .rcFloat => .lowFloated
  | .rcRdOn => .rdN false
  | .rcDenOn => .denN false
  | .rcSettle => .adRead
  | .rcDenOff => .denN true
  | .rcRdOff | .idle | .acqWait | .relHold | .relWait => .rdN true

/-- The phases of a `READ` in order. -/
def Phase.cycle : List Phase := [.rcAleHi, .rcAleLo, .rcFloat, .rcRdOn, .rcDenOn, .rcSettle, .rcDenOff, .rcRdOff]

/-- The phases of a `READ` that are over in phase `p`, the latest first; in `IDLE`, all. -/
def Phase.past (p : Phase) : List Phase := (Phase.cycle.takeWhile (· ≠ p)).reverse

/-- T3 is past. -/
def Phase.captured : Phase → Bool
  | .rcAleHi | .rcAleLo => false
  | _ => true

/-- T7 is past. -/
def Phase.sampled : Phase → Bool
  | .rcDenOff | .rcRdOff | .idle => true
  | _ => false

/-- The edge, counted from the one that accepts the `READ` in `s`, that ends phase `p`; for `IDLE`, the edge after the
response (R88's `e0 + …`). -/
def State.phaseEnd (s : State) : Phase → Nat
  | .rcAleHi => s.params.phaseCycles
  | .rcAleLo => 2 * s.params.phaseCycles
  | .rcFloat => 3 * s.params.phaseCycles
  | .rcRdOn => 4 * s.params.phaseCycles
  | .rcDenOn => 5 * s.params.phaseCycles
  | .rcSettle => 5 * s.params.phaseCycles + s.settleEdges
  | .rcDenOff => 6 * s.params.phaseCycles + s.settleEdges
  | .rcRdOff => 7 * s.params.phaseCycles + s.settleEdges
  | .idle | .acqWait | .relHold | .relWait => s.readEdges + 1

theorem ne_idle_of_reading {p : Phase} (h : p.reading = true) : p ≠ .idle := by
  rintro rfl
  cases h

/-- No phase ends later than the `READ` (R101). -/
theorem phaseEnd_le_readEdges (s : State) {p : Phase} (h : p.reading = true) : s.phaseEnd p ≤ s.readEdges := by
  cases p with
  | idle | acqWait | relHold | relWait => cases h
  | _ =>
    simp only [State.phaseEnd, State.readEdges]
    omega

theorem past_after {p : Phase} (h : p.reading = true) : p.after.past = p :: p.past := by
  revert h
  cases p <;> decide

theorem after_reading_or_idle (p : Phase) : p.after.reading = true ∨ p.after = .idle := by
  cases p <;> decide

/-- The wait of the settle phase is never empty (R13, R36). -/
theorem State.Inv.settleEdges_pos {s : State} (hi : s.Inv) : 1 ≤ s.settleEdges := by
  have hsettle : s.blk.settle.toNat ≠ 0 := fun h => hi.settle (BitVec.eq_of_toNat_eq h)
  exact Nat.mul_pos (Nat.pos_of_ne_zero hsettle) hi.ticksPerUs

/-! ## What T2 to T9 do -/

section
variable {s : State} (h : s.blk.ph.reading = true)
include h

theorem cycleEnd_ph : s.cycleEnd.blk.ph = s.blk.ph.after := by
  revert h
  unfold State.cycleEnd
  cases hp : s.blk.ph with
  | idle | acqWait | relHold | relWait => exact nofun
  | _ => exact fun _ => rfl

/-- Each transition is written down, with its edge (R99). -/
theorem cycleEnd_recorder : s.cycleEnd.board.recorder = (s.board.edge, s.blk.ph.endEvent) :: s.board.recorder := by
  revert h
  unfold State.cycleEnd
  cases hp : s.blk.ph with
  | idle | acqWait | relHold | relWait => exact nofun
  | _ => exact fun _ => rfl

/-- From the lines of its phase each transition makes those of the next (R88). -/
theorem cycleEnd_lines {a : Addr} (hl : s.blk.lines = s.blk.ph.cycleLines a) :
    s.cycleEnd.blk.lines = s.blk.ph.after.cycleLines a := by
  revert h hl
  unfold State.cycleEnd
  cases hp : s.blk.ph with
  | idle | acqWait | relHold | relWait => exact nofun
  | rcSettle => exact fun _ hl => hl
  | rcAleHi => exact fun _ hl => congrArg (Lines.setAle · true) hl
  | rcAleLo => exact fun _ hl => congrArg (Lines.setAle · false) hl
  | rcFloat =>
    exact fun _ hl => (congrArg Lines.floatLow hl).trans
      (congrArg (Phase.lines .rcRdOn ⟨·, a⟩) fullAddress_and_high)
  | rcRdOn => exact fun _ hl => congrArg (Lines.setRdN · false) hl
  | rcDenOn => exact fun _ hl => congrArg (Lines.setDenN · false) hl
  | rcDenOff => exact fun _ hl => congrArg (Lines.setDenN · true) hl
  | rcRdOff => exact fun _ hl => congrArg (Lines.setRdN · true) hl

/-- A transition loads `CNT` so that the next phase ends at its edge (R89). -/
theorem phaseEnd_after (hP : 1 ≤ s.params.phaseCycles) (hS : 1 ≤ s.settleEdges) (hc : s.blk.cnt = 0) :
    s.phaseEnd s.blk.ph + 1 + s.cycleEnd.blk.cnt = s.phaseEnd s.blk.ph.after := by
  revert h
  unfold State.cycleEnd
  cases hp : s.blk.ph with
  | idle | acqWait | relHold | relWait => exact nofun
  | rcDenOn =>
    intro _
    change 5 * s.params.phaseCycles + 1 + (s.settleEdges - 1) = 5 * s.params.phaseCycles + s.settleEdges
    omega
  | rcRdOff => exact fun _ => congrArg (s.readEdges + 1 + ·) hc
  | _ =>
    intro _
    change _ + 1 + (s.params.phaseCycles - 1) = _
    simp only [State.phaseEnd, Phase.after]
    omega

/-- The only transition that answers is the last, with `DATA` (R97, R100). -/
theorem cycleEnd_response (hv : s.blk.rspValid = false) :
    (s.blk.ph.after ≠ .idle → s.cycleEnd.blk.rspValid = false) ∧
    (s.blk.ph.after = .idle → s.cycleEnd.blk.cnt = s.blk.cnt ∧ s.cycleEnd.blk.rspValid = true ∧
      s.cycleEnd.blk.rspStatus = .ok ∧ s.cycleEnd.blk.rspData = s.cycleEnd.blk.data) := by
  revert h
  unfold State.cycleEnd
  cases hp : s.blk.ph with
  | idle | acqWait | relHold | relWait => exact nofun
  | rcRdOff => exact fun _ => ⟨fun hn => absurd rfl hn, fun _ => ⟨rfl, rfl, rfl, rfl⟩⟩
  | _ => exact fun _ => ⟨fun _ => hv, nofun⟩

/-- Of the transitions up to T9 only T7 writes `DATA` (R37, R95). -/
theorem cycleEnd_data (hs : s.blk.ph.after.sampled = true) :
    (s.blk.ph = .rcSettle ∧ s.cycleEnd.blk.data = s.samplePins) ∨
    (s.blk.ph.sampled = true ∧ s.cycleEnd.blk.data = s.blk.data) := by
  revert h hs
  unfold State.cycleEnd
  cases hp : s.blk.ph with
  | rcSettle => exact fun _ _ => .inl ⟨rfl, rfl⟩
  | rcDenOff | rcRdOff => exact fun _ _ => .inr ⟨rfl, rfl⟩
  | _ => exact nofun

/-- After T3 no transition moves `ALE` (R98). -/
theorem cycleEnd_ale (hs : s.blk.ph.after.captured = true) :
    s.blk.ph = .rcAleLo ∨ (s.blk.ph.captured = true ∧ s.cycleEnd.blk.lines.ale = s.blk.lines.ale) := by
  revert h hs
  unfold State.cycleEnd
  cases hp : s.blk.ph with
  | rcAleLo => exact fun _ _ => .inl rfl
  | rcAleHi | idle | acqWait | relHold | relWait => exact nofun
  | _ => exact fun _ _ => .inr ⟨rfl, rfl⟩

/-- T3 captures the operand from the 20 driven lines, and no later transition captures again (R45, R52). -/
theorem latchAfter_cycleEnd {a : Addr} (hl : s.blk.lines = s.blk.ph.cycleLines a)
    (hlatch : s.blk.ph.captured = true → s.board.latch = a) (hcap : s.blk.ph.after.captured = true) :
    latchAfter s s.quiet.cycleEnd.syncShift = a := by
  rcases cycleEnd_ale (s := s.quiet) h hcap with hp | ⟨hbefore, hale⟩
  · have hnext := cycleEnd_lines (s := s.quiet) h hl
    rw [show s.blk.ph = .rcAleLo from hp] at hl
    rw [hp] at hnext
    calc latchAfter s s.quiet.cycleEnd.syncShift
      _ = s.adPins := latchAfter_of_fall (congrArg Lines.ale hl) (congrArg Lines.ale hnext)
      _ = s.blk.lines.ad.out := adPins_of_full (congrArg (·.ad.driven) hl)
      _ = a := congrArg (·.ad.out) hl
  · obtain ⟨-, -, hkept⟩ := cycleEnd_keeps_address s.quiet
    exact (latchAfter_of_ale hale).trans (hkept.trans (hlatch hbefore))

end

/-! ## What no edge of a `READ` changes -/

/-- From `s` to `t`: `OWN`, `SETTLE`, `ERR`, `HOLD`, the parameters and the target's memory are kept. -/
structure State.ReadFrame (s t : State) : Prop where
  own : t.blk.own = s.blk.own
  settle : t.blk.settle = s.blk.settle
  err : t.blk.err = s.blk.err
  holdO : t.blk.holdO = s.blk.holdO
  params : t.params = s.params
  mem : t.target.mem = s.target.mem

theorem State.ReadFrame.trans {s t u : State} (h : s.ReadFrame t) (k : t.ReadFrame u) : s.ReadFrame u :=
  ⟨k.own.trans h.own, k.settle.trans h.settle, k.err.trans h.err, k.holdO.trans h.holdO, k.params.trans h.params,
    k.mem.trans h.mem⟩

/-- The synchroniser, the board and the agents outside keep all of it. -/
theorem State.ReadFrame.edge {s t : State} (h : s.quiet.ReadFrame t) : s.ReadFrame (s.environment t.syncShift) :=
  ⟨h.own, h.settle, h.err, h.holdO, h.params, (answer_mem _ _).trans h.mem⟩

theorem cycleEnd_readFrame (s : State) : s.ReadFrame s.cycleEnd := by
  unfold State.cycleEnd
  cases s.blk.ph <;> exact ⟨rfl, rfl, rfl, rfl, rfl, rfl⟩

theorem State.ReadFrame.settleEdges {s t : State} (h : s.ReadFrame t) : t.settleEdges = s.settleEdges := by
  rw [State.settleEdges, State.settleEdges, h.settle, h.params]

theorem State.ReadFrame.phaseEnd {s t : State} (h : s.ReadFrame t) : t.phaseEnd = s.phaseEnd := by
  funext p
  cases p <;> simp only [State.phaseEnd, State.readEdges, h.params, h.settleEdges]

/-! ## The state at each edge of a `READ` -/

/-- `u` is the state `n` edges from `s`, whose coming edge accepts `READ a`: from the accepting edge to the one after the
response, everything R88, R99 and R100 fix as a function of the phase. -/
structure State.ReadAt (s : State) (a : Addr) (n : Nat) (u : State) : Prop where
  reached : run n s = .next u
  running : u.blk.ph.reading = true ∨ u.blk.ph = .idle ∧ u.blk.cnt = 0
  /-- `CNT` is the number of edges left before the one that ends the phase. -/
  clock : n + u.blk.cnt = s.phaseEnd u.blk.ph
  lines : u.blk.lines = u.blk.ph.cycleLines a
  opnd : u.blk.opnd = a
  latch : u.blk.ph.captured = true → u.board.latch = a
  sample : u.blk.ph.sampled = true → ∃ v, run (s.phaseEnd .rcSettle) s = .next v ∧ u.blk.data = v.samplePins
  silent : u.blk.ph ≠ .idle → u.blk.rspValid = false
  answer : u.blk.ph = .idle → u.blk.rspValid = true ∧ u.blk.rspStatus = .ok ∧ u.blk.rspData = u.blk.data
  edge : u.board.edge = s.board.edge + n
  trace : u.board.recorder = u.blk.ph.past.map (fun p => (s.board.edge + s.phaseEnd p, p.endEvent)) ++
    (s.board.edge, .adDriven a) :: s.board.recorder
  frame : s.ReadFrame u

theorem run_succ_of_run {s t u : State} {n : Nat} (h : run n s = .next t) (hs : step t = .next u) :
    run (n + 1) s = .next u :=
  (run_add h).trans (run_succ_of_step hs)

theorem exists_step_of_run_succ {s t : State} {n : Nat} (h : run (n + 1) s = .next t) :
    ∃ u, step s = .next u ∧ run n u = .next t := by
  cases hs : step s with
  | next u => exact ⟨u, rfl, run_succ_of_step hs ▸ h⟩
  | fault r => exact nomatch r
  | refused r =>
    simp only [run, Host.Core.run] at h
    rw [show Sys2Proof.core.step s = .refused r from hs] at h
    cases h

/-- The resets that do not come over a run do not come over its rest. -/
theorem noReset_of_run {s t : State} {m n : Nat} (hn : s.NoReset (m + n)) (h : run m s = .next t) : t.NoReset n := by
  induction m generalizing s with
  | zero =>
    cases h
    simpa using hn
  | succ m ih =>
    obtain ⟨u, hs, hu⟩ := exists_step_of_run_succ h
    rw [Nat.succ_add] at hn
    exact ih (noReset_of_step hn hs) hu

/-- Up to its last edge the `READ` is in one of its phases (R101). -/
theorem State.ReadAt.reading_of_le {s u : State} {a : Addr} {n : Nat} (hu : s.ReadAt a n u) (hn : n ≤ s.readEdges) :
    u.blk.ph.reading = true := by
  refine hu.running.resolve_right fun ⟨hp, hc⟩ => ?_
  have hclock := hu.clock
  rw [hp, hc] at hclock
  change n = s.readEdges + 1 at hclock
  omega

/-- T1: the accepting edge (R88, R90). -/
theorem readAt_one {s : State} {a : Addr} (hi : s.Inv) (ha : s.Accepts (.read a)) (ho : s.blk.own = .held) :
    ∃ u, s.ReadAt a 1 u := by
  have hok : stateOk (.read a) s.quiet.blk.own = true := by simp [stateOk, ho]
  have hlines := hi.lines_of_on (hi.controlOn_of_running (.inr ⟨ha.idle, ho⟩))
  rw [ha.idle] at hlines
  have hstep := step_of_accepts ha.1 (dispatch_of_stateOk ha.2 hok)
  exact ⟨_, {
    reached := run_succ_of_run (run_zero s) hstep
    running := .inl rfl
    clock := Nat.add_sub_cancel' hi.phaseCycles
    lines := congrArg (Lines.driveAddress · a) hlines
    opnd := rfl
    latch := nofun
    sample := nofun
    silent := fun _ => rfl
    answer := nofun
    edge := rfl
    trace := rfl
    frame := .edge ⟨rfl, rfl, rfl, rfl, rfl, rfl⟩ }⟩

/-- An edge inside a phase (R89). -/
theorem readAt_of_count {s u : State} {a : Addr} {n : Nat} (hu : s.ReadAt a n u)
    (hr : u.host.pins.rst = false) (hread : u.blk.ph.reading = true) (hc : u.blk.cnt ≠ 0) :
    ∃ t, s.ReadAt a (n + 1) t := by
  have hstep := step_of_reading hr hread
  rw [countdown_of_pos (s := u.quiet) hc] at hstep
  have hclock : n + 1 + (u.blk.cnt - 1) = s.phaseEnd u.blk.ph := by
    have := hu.clock
    omega
  exact ⟨_, {
    reached := run_succ_of_run hu.reached hstep
    running := .inl hread
    clock := hclock
    lines := hu.lines
    opnd := hu.opnd
    latch := fun hcap => (latchAfter_of_ale rfl).trans (hu.latch hcap)
    sample := hu.sample
    silent := fun _ => rfl
    answer := fun hidle => absurd hidle (ne_idle_of_reading hread)
    edge := congrArg (· + 1) hu.edge
    trace := hu.trace
    frame := hu.frame.trans (.edge ⟨rfl, rfl, rfl, rfl, rfl, rfl⟩) }⟩

/-- An edge that ends a phase: T2 to T9 (R88, R89). -/
theorem readAt_of_advance {s u : State} {a : Addr} {n : Nat} (hi : s.Inv) (hu : s.ReadAt a n u)
    (hr : u.host.pins.rst = false) (hread : u.blk.ph.reading = true) (hc : u.blk.cnt = 0) :
    ∃ t, s.ReadAt a (n + 1) t := by
  have hstep := step_of_reading hr hread
  rw [countdown_of_zero (s := u.quiet) hc] at hstep
  have hn : n = s.phaseEnd u.blk.ph := by simpa [hc] using hu.clock
  have hph : u.quiet.cycleEnd.blk.ph = u.blk.ph.after := cycleEnd_ph (s := u.quiet) hread
  have hclock : s.phaseEnd u.blk.ph + 1 + u.quiet.cycleEnd.blk.cnt = s.phaseEnd u.blk.ph.after := by
    rw [← hu.frame.phaseEnd]
    exact phaseEnd_after (s := u.quiet) hread (hu.frame.params ▸ hi.phaseCycles)
      (hu.frame.settleEdges ▸ hi.settleEdges_pos) hc
  have hedge : u.board.edge = s.board.edge + s.phaseEnd u.blk.ph := hn ▸ hu.edge
  have hrecord : u.quiet.cycleEnd.board.recorder =
      (s.board.edge + s.phaseEnd u.blk.ph, u.blk.ph.endEvent) :: u.board.recorder :=
    hedge ▸ cycleEnd_recorder (s := u.quiet) hread
  obtain ⟨hsilent, hanswer⟩ := cycleEnd_response (s := u.quiet) hread rfl
  obtain ⟨hopnd, -, -⟩ := cycleEnd_keeps_address u.quiet
  refine ⟨u.environment u.quiet.cycleEnd.syncShift, {
    reached := run_succ_of_run hu.reached hstep
    running := ?running
    clock := ?clock
    lines := ?lines
    opnd := hopnd.trans hu.opnd
    latch := ?latch
    sample := ?sample
    silent := ?silent
    answer := ?answer
    edge := (target_of_step hstep).2.trans (congrArg (· + 1) hu.edge)
    trace := ?trace
    frame := hu.frame.trans (.edge (cycleEnd_readFrame _)) }⟩ <;>
    simp only [State.environment_blk, State.syncShift_blk, State.environment_recorder, State.syncShift_board, hph]
  case running => exact (after_reading_or_idle _).imp_right fun hidle => ⟨hidle, (hanswer hidle).1.trans hc⟩
  case clock => rwa [hn]
  case lines => exact cycleEnd_lines (s := u.quiet) hread hu.lines
  case latch => exact latchAfter_cycleEnd hread hu.lines hu.latch
  case sample =>
    intro hs
    rcases cycleEnd_data (s := u.quiet) hread hs with ⟨hp, hd⟩ | ⟨hs', hd⟩
    · have hnow : n = s.phaseEnd .rcSettle := hn.trans (congrArg s.phaseEnd hp)
      exact ⟨u, hnow ▸ hu.reached, hd⟩
    · obtain ⟨v, hv, hdata⟩ := hu.sample hs'
      exact ⟨v, hv, hd.trans hdata⟩
  case silent => exact hsilent
  case answer => exact fun hidle => (hanswer hidle).2
  case trace => rw [hrecord, hu.trace, past_after hread, List.map_cons, List.cons_append]

/-- With no reset, every edge of a `READ` up to the one after its response is as `ReadAt` says. -/
theorem exists_readAt {s : State} {a : Addr} (hi : s.Inv) (ha : s.Accepts (.read a)) (ho : s.blk.own = .held)
    (hr : s.NoReset s.readEdges) {n : Nat} (h1 : 1 ≤ n) (hn : n ≤ s.readEdges + 1) : ∃ u, s.ReadAt a n u := by
  induction n, h1 using Nat.le_induction with
  | base => exact readAt_one hi ha ho
  | succ n h1 ih =>
    obtain ⟨u, hu⟩ := ih (Nat.le_of_succ_le hn)
    have hle : n ≤ s.readEdges := Nat.le_of_succ_le_succ hn
    have hrst : u.host.pins.rst = false :=
      (noReset_of_run (n := s.readEdges - n) (by rwa [Nat.add_sub_cancel' hle]) hu.reached).1
    have hread : u.blk.ph.reading = true := hu.reading_of_le hle
    by_cases hc : u.blk.cnt = 0
    · exact readAt_of_advance hi hu hrst hread hc
    · exact readAt_of_count hu hrst hread hc

/-- The state after a whole `READ` (R100, R101). -/
theorem exists_readAt_end {s : State} {a : Addr} (hi : s.Inv) (ha : s.Accepts (.read a)) (ho : s.blk.own = .held)
    (hr : s.NoReset s.readEdges) : ∃ t, s.ReadAt a (s.readEdges + 1) t ∧ t.blk.ph = .idle := by
  obtain ⟨t, ht⟩ := exists_readAt hi ha ho hr (Nat.succ_pos _) le_rfl
  refine ⟨t, ht, ht.running.elim (fun hread => ?_) And.left⟩
  have hlate := phaseEnd_le_readEdges s hread
  have hclock := ht.clock
  omega

/-! ## The obligations -/

/-- Settles O49: the invariant fixes the lines of the phase, and the transition that ends it is the sample. -/
theorem samplePointPrecondition : Obligations.SamplePointPrecondition := by
  intro s hi hr hp hc
  have hread : s.blk.ph.reading = true := congrArg Phase.reading hp
  have hlines := hi.lines_of_on (hi.controlOn_of_running (.inl hread))
  have hlow : s.blk.lines.ad.driven = 0xFFF00 := hi.adHigh (congrArg Phase.highAddress hp)
  have hend : s.quiet.countdown State.cycleEnd = s.quiet.settleSample := by
    rw [countdown_of_zero (s := s.quiet) hc, State.cycleEnd, show s.quiet.blk.ph = .rcSettle from hp]
  rw [hp] at hlines
  refine ⟨by rw [hlines]; rfl, by rw [hlines]; rfl, by rw [hlines]; rfl, by rw [hlines]; rfl,
    fun i h8 => Lines.dir_ad_of_low hlow h8, _, step_of_reading hr hread, ?_⟩
  rw [hend]
  rfl

/-- Settles O50: at each edge the state is the one of `ReadAt`, and at the last one the phase is `IDLE`. -/
theorem readCompletesOnTime : Obligations.ReadCompletesOnTime := by
  intro s a hi ha ho hr
  refine ⟨fun j h1 hj => ?_, ?_⟩
  · obtain ⟨u, hu⟩ := exists_readAt hi ha ho hr h1 (Nat.le_succ_of_le hj)
    have hbusy : u.blk.ph ≠ .idle := ne_idle_of_reading (hu.reading_of_le hj)
    exact ⟨u, hu.reached, hbusy, hu.silent hbusy⟩
  · obtain ⟨t, ht, hp⟩ := exists_readAt_end hi ha ho hr
    obtain ⟨hv, hst, hd⟩ := ht.answer hp
    obtain ⟨hown, hsettle, herr, hhold, hparams, hmem⟩ := ht.frame
    have hlines := ht.lines
    rw [hp] at hlines
    exact ⟨t, ht.reached, hlines, ht.latch (hp ▸ rfl), ht.opnd, hp, hown.trans ho, hv, hst, hd,
      ht.sample (hp ▸ rfl), hsettle, herr, hhold, hparams, fun x => hmem ▸ rfl⟩

/-- Settles O51: the trace of `ReadAt` in `IDLE`, where every phase is past. -/
theorem readTraceIsTheNineEvents : Obligations.ReadTraceIsTheNineEvents := by
  intro s a hi ha ho hr
  obtain ⟨t, ht, hp⟩ := exists_readAt_end hi ha ho hr
  refine ⟨hi.phaseCycles, hi.settleEdges_pos, t, ht.reached, ?_⟩
  have htrace := ht.trace
  rw [hp, show Phase.idle.past = Phase.cycle.reverse by decide] at htrace
  simpa [Phase.cycle, State.phaseEnd, Phase.endEvent, Nat.add_assoc] using htrace

end Sys2Proof.Machine
end

section
/-! PROOFS. The host's capture (45_host_sequence.md): the commands it sends, position by position, and the artifact it makes
of the answers, offset by offset. -/

namespace Sys2Proof.Machine

/-! ## The commands of a capture (R73, R106) -/

@[simp] theorem length_readN (a n : Nat) : (readN a n).length = n := by
  simp [readN]

theorem readN_getElem? {a n k : Nat} (h : k < n) : (readN a n)[k]? = some (.read (BitVec.ofNat 20 (a + k))) := by
  rw [readN, List.getElem?_map, List.getElem?_range h]
  rfl

/-- A capture with `n` `READ`s, for any `n`, so that no proof counts to 1,048,576; tied to the host's by `capture_eq`. -/
def captureOf (n : Nat) : List Instr := .acquire :: (readN 0 n ++ [.float, .release])

theorem capture_eq : capture = captureOf captureLength := by
  rw [capture, List.append_assoc, List.singleton_append, captureOf]

theorem length_captureOf (n : Nat) : (captureOf n).length = n + 3 := by
  simp [captureOf]

/-- `READ k` follows `ACQUIRE` and the `k` `READ`s below it. -/
theorem captureOf_getElem?_read {n k : Nat} (h : k < n) :
    (captureOf n)[k + 1]? = some (.read (BitVec.ofNat 20 k)) := by
  have hread : k < (readN 0 n).length := by rwa [length_readN]
  rw [captureOf, List.getElem?_cons_succ, List.getElem?_append_left hread, readN_getElem? h, Nat.zero_add]

/-- After the last `READ` come `FLOAT` and `RELEASE`. -/
theorem captureOf_getElem?_after_reads (n j : Nat) :
    (captureOf n)[n + j + 1]? = ([.float, .release] : List Instr)[j]? := by
  have hreads : (readN 0 n).length ≤ n + j := by simp
  rw [captureOf, List.getElem?_cons_succ, List.getElem?_append_right hreads, length_readN, Nat.add_sub_cancel_left]

/-! ## The artifact (R108, R109) -/

theorem forwarded_of_lost {lost : List Nat} {k : Nat} (h : k ∈ lost) (rs : List Response) :
    forwarded lost rs k = none := if_pos h

theorem forwarded_of_not_lost {lost : List Nat} {k : Nat} (h : k ∉ lost) (rs : List Response) :
    forwarded lost rs k = captureSample rs k := if_neg h

/-- Where `READ k` has a sample, offset `k` fails exactly when its byte is lost. -/
theorem forwarded_isNone_iff {lost : List Nat} {rs : List Response} {k : Nat}
    (h : ∃ b, captureSample rs k = some b) : (forwarded lost rs k).isNone = true ↔ k ∈ lost := by
  obtain ⟨b, hb⟩ := h
  by_cases hk : k ∈ lost
  · simp [forwarded_of_lost hk, hk]
  · simp [forwarded_of_not_lost hk, hb, hk]

theorem length_artifact (got : Nat → Option Byte) : (artifact got).1.length = captureLength := by
  simp [artifact, artifactUpTo]

theorem artifact_getElem? {k : Nat} (got : Nat → Option Byte) (h : k < captureLength) :
    (artifact got).1[k]? = some (artifactByte (got k)) := artifactUpTo_getElem? got h

/-- Where every `READ` has a sample, the failed offsets are the lost ones. -/
theorem artifactUpTo_failed {len : Nat} {lost : List Nat} {rs : List Response}
    (h : ∀ k < len, ∃ b, captureSample rs k = some b) :
    (artifactUpTo len (forwarded lost rs)).2 = (List.range len).countP fun k => decide (k ∈ lost) := by
  refine List.countP_congr fun k hk => ?_
  rw [forwarded_isNone_iff (h k (List.mem_range.mp hk)), decide_eq_true_iff]

/-! ## The obligations -/

/-- Settles O57: position `k + 1` of the capture is `READ k`, and 20 bits hold every `k` below 1,048,576. -/
theorem captureReadsEachAddressOnce : Obligations.CaptureReadsEachAddressOnce := by
  unfold Obligations.CaptureReadsEachAddressOnce
  rw [capture_eq]
  exact ⟨length_captureOf _, rfl,
    fun k hk => ⟨BitVec.ofNat 20 k, captureOf_getElem?_read hk, Nat.mod_eq_of_lt hk⟩,
    captureOf_getElem?_after_reads _ 0, captureOf_getElem?_after_reads _ 1⟩

/-- Settles O58: each offset holds what reached the sink there, and a lost byte never did. -/
theorem artifactKeepsOffsets : Obligations.ArtifactKeepsOffsets := by
  intro lost rs
  refine ⟨length_artifact _, fun k hk hlost => ?_, fun k hk b hkept hb => ?_, artifactUpTo_failed⟩
  · rw [artifact_getElem? _ hk, forwarded_of_lost hlost, artifactByte]
  · rw [artifact_getElem? _ hk, forwarded_of_not_lost hkept, hb, artifactByte]

end Sys2Proof.Machine
end

section
/-! PROOFS. Rejections (60_exceptions.md): what an edge that rejects nothing can answer (R112), and the order of the two
codes (R116). -/

namespace Sys2Proof.Machine

/-! ## What a command in progress answers (R112) -/

/-- The block presents no error status: no response, or one with `OK`. -/
def Block.AnswersNoError (b : Block) : Prop := b.rspValid = true → b.rspStatus = .ok

theorem Block.answersNoError_of_silent {b : Block} (h : b.rspValid = false) : b.AnswersNoError := by
  simp [Block.AnswersNoError, h]

/-- A command that `OWN` allows answers `OK` at its accepting edge, or nothing yet. -/
theorem perform_answersNoError {s : State} (hv : s.blk.rspValid = false) (i : Instr) :
    (s.perform i).blk.AnswersNoError := by
  cases i with
  | acquire | release | read => exact Block.answersNoError_of_silent hv
  | drive | float | sample | setsettle => exact fun _ => rfl

/-- A transition of `READ` answers `OK` at T9, and nothing before it. -/
theorem cycleEnd_answersNoError {s : State} (h : s.blk.ph.reading = true) (hv : s.blk.rspValid = false) :
    s.cycleEnd.blk.AnswersNoError := by
  obtain ⟨hbefore, hlast⟩ := cycleEnd_response h hv
  by_cases hp : s.blk.ph.after = .idle
  · obtain ⟨-, -, hok, -⟩ := hlast hp
    exact fun _ => hok
  · exact Block.answersNoError_of_silent (hbefore hp)

/-- The phase in progress answers `OK` where it completes its command, and nothing before. -/
theorem phaseEdge_answersNoError {s : State} (hv : s.blk.rspValid = false) : s.phaseEdge.blk.AnswersNoError := by
  have hsilent := Block.answersNoError_of_silent hv
  rcases phaseEdge_kinds s with ⟨-, he⟩ | ⟨-, he⟩ | ⟨-, he⟩ | ⟨-, he⟩ | ⟨hr, he⟩ <;> rw [he]
  · exact hsilent
  · cases h2 : s.blk.s2 with
    | true => exact acqWaitEdge_of_ack h2 ▸ fun _ => rfl
    | false => exact (acqWaitEdge_of_noAck h2).symm ▸ hsilent
  · exact hsilent
  · cases h2 : s.blk.s2 with
    | true => exact (relWaitEdge_of_ack h2).symm ▸ hsilent
    | false => exact relWaitEdge_of_noAck h2 ▸ fun _ => rfl
  · by_cases h0 : s.blk.cnt = 0
    · exact (countdown_of_zero h0).symm ▸ cycleEnd_answersNoError hr hv
    · exact (countdown_of_pos h0).symm ▸ hsilent

/-! ## The obligations -/

/-- Settles O28: of the kinds of edge without reset, only the rejection can answer anything but `OK`. -/
theorem performedCommandsNeverFail : Obligations.PerformedCommandsNeverFail := by
  intro s t hr h hv herr
  rcases step_kinds h with ⟨hr', -⟩ | ⟨c, ha, hc, rfl⟩ | ⟨i, -, -, -, rfl⟩ | ⟨-, -, rfl⟩
  · exact absurd (hr.symm.trans hr') Bool.false_ne_true
  · exact ⟨ha, hc⟩
  · exact absurd (perform_answersNoError (s := s.quiet) rfl i hv) herr
  · exact absurd (phaseEdge_answersNoError (s := s.quiet) rfl hv) herr

/-- The code of an illegal word is `ILLEGAL`, whatever `OWN` is (R116). -/
theorem rejectCode_of_illegal {w : Word32} {c : IllegalCause} (h : decode w = .error c) (o : Ownership) :
    rejectCode w o = some .illegal := by
  simp only [rejectCode, h]

/-- Settles O26: the word alone gives the code, and the edge answers it. -/
theorem illegalComesBeforeBadState : Obligations.IllegalComesBeforeBadState := by
  intro s c ha hd
  have hdisp := dispatch_of_rejectCode (s := s.quiet) (rejectCode_of_illegal hd s.blk.own)
  exact ⟨_, step_of_accepts ha hdisp, rfl, rfl⟩

end Sys2Proof.Machine
end

section
/-! PROOFS. Encoding (30_encoding.md): the fields of a word as numbers, the words that decode to a command and those that
decode to none (R69, R70), and what the assembler makes of a line (R72, R73). -/

namespace Sys2Proof

/-! ## The fields of a word (R67, R68) -/

theorem toNat_opField (w : Word32) : (opField w).toNat = w.toNat / 2 ^ 28 := by
  have hw := w.isLt
  rw [opField, BitVec.extractLsb'_toNat, Nat.shiftRight_eq_div_pow]
  omega

theorem toNat_addrField (w : Word32) : (addrField w).toNat = w.toNat % 2 ^ 20 := by
  rw [addrField, BitVec.extractLsb'_toNat, Nat.shiftRight_zero]

theorem toNat_valField (w : Word32) : (valField w).toNat = w.toNat % 2 ^ 16 := by
  rw [valField, BitVec.extractLsb'_toNat, Nat.shiftRight_zero]

theorem z28Field_eq_zero_iff (w : Word32) : z28Field w = 0 ↔ w.toNat % 2 ^ 28 = 0 := by
  rw [← BitVec.toNat_inj, z28Field, BitVec.extractLsb'_toNat, Nat.shiftRight_zero]
  rfl

theorem z8Field_eq_zero_iff (w : Word32) : z8Field w = 0 ↔ w.toNat / 2 ^ 20 % 2 ^ 8 = 0 := by
  rw [← BitVec.toNat_inj, z8Field, BitVec.extractLsb'_toNat, Nat.shiftRight_eq_div_pow]
  rfl

theorem z12Field_eq_zero_iff (w : Word32) : z12Field w = 0 ↔ w.toNat / 2 ^ 16 % 2 ^ 12 = 0 := by
  rw [← BitVec.toNat_inj, z12Field, BitVec.extractLsb'_toNat, Nat.shiftRight_eq_div_pow]
  rfl

theorem valField_eq_zero_iff (w : Word32) : valField w = 0 ↔ w.toNat % 2 ^ 16 = 0 := by
  rw [← BitVec.toNat_inj, toNat_valField]
  rfl

/-! ## The word of a command (R69) -/

/-- The opcode of a command (R69). -/
def Instr.opcode : Instr → Nat
  | .acquire => 1
  | .release => 2
  | .drive _ => 3
  | .float => 4
  | .sample => 5
  | .read _ => 6
  | .setsettle _ => 7

/-- The operand of a command as a number, 0 where it has none (R68). -/
def Instr.operand : Instr → Nat
  | .acquire | .release | .float | .sample => 0
  | .drive a | .read a => a.toNat
  | .setsettle n => n.toNat

theorem Instr.operand_lt (i : Instr) : i.operand < 2 ^ 20 := by
  cases i with
  | acquire | release | float | sample => exact Nat.two_pow_pos 20
  | drive a | read a => exact a.isLt
  | setsettle n => exact n.isLt.trans (by decide)

/-- Or-ing an operand into the low bits adds it. -/
theorem toNat_or_operand {c : Word32} {op n : Nat} (x : BitVec n) (hc : c.toNat = 2 ^ 28 * op) (hn : n ≤ 28) :
    (c ||| x.setWidth 32).toNat = op * 2 ^ 28 + x.toNat := by
  have hx : x.toNat < 2 ^ 28 := x.isLt.trans_le (Nat.pow_le_pow_right (by decide) hn)
  rw [BitVec.toNat_or, BitVec.toNat_setWidth_of_le (by omega), hc, ← Nat.two_pow_add_eq_or_of_lt hx, Nat.mul_comm]

/-- The word of a command is its opcode above its operand. -/
theorem toNat_encode (i : Instr) : (encode i).toNat = i.opcode * 2 ^ 28 + i.operand := by
  cases i with
  | acquire | release | float | sample => rfl
  | drive a => exact toNat_or_operand (op := 3) a rfl (by decide)
  | read a => exact toNat_or_operand (op := 6) a rfl (by decide)
  | setsettle n => exact toNat_or_operand (op := 7) n rfl (by decide)

theorem toNat_opField_encode (i : Instr) : (opField (encode i)).toNat = i.opcode := by
  have hlt := i.operand_lt
  rw [toNat_opField, toNat_encode]
  omega

theorem encode_eq_iff {i : Instr} {w : Word32} : encode i = w ↔ w.toNat = i.opcode * 2 ^ 28 + i.operand := by
  rw [← toNat_encode, eq_comm, BitVec.toNat_inj]

/-! ## The words that decode (R69) -/

theorem decodeN_eq_ok_iff {w : Word32} {i j : Instr} :
    decodeN w i = .ok j ↔ w.toNat % 2 ^ 28 = 0 ∧ i = j := by
  rw [decodeN, ← z28Field_eq_zero_iff]
  split <;> simp_all

theorem decodeA_eq_ok_iff {w : Word32} {mk : Addr → Instr} {j : Instr} :
    decodeA w mk = .ok j ↔ w.toNat / 2 ^ 20 % 2 ^ 8 = 0 ∧ mk (addrField w) = j := by
  rw [decodeA, ← z8Field_eq_zero_iff]
  split <;> simp_all

theorem decodeV_eq_ok_iff {w : Word32} {mk : Micros → Instr} {j : Instr} :
    decodeV w mk = .ok j ↔
      w.toNat / 2 ^ 16 % 2 ^ 12 = 0 ∧ w.toNat % 2 ^ 16 ≠ 0 ∧ mk (valField w) = j := by
  rw [decodeV, ← z12Field_eq_zero_iff, ne_eq, ← valField_eq_zero_iff]
  repeat' split
  all_goals simp_all

/-- A well-formed command decodes from its own word. -/
theorem decode_encode {i : Instr} (h : i.wellFormed = true) : decode (encode i) = .ok i := by
  have hw := toNat_encode i
  rw [decode, toNat_opField_encode]
  cases i with
  | acquire | release | float | sample => rfl
  | drive a | read a =>
    have ha := a.isLt
    simp only [Instr.opcode, Instr.operand] at hw
    refine decodeA_eq_ok_iff.mpr ⟨by omega, congrArg _ (BitVec.eq_of_toNat_eq ?_)⟩
    rw [toNat_addrField]
    omega
  | setsettle n =>
    have hn := n.isLt
    have h0 : n.toNat ≠ 0 := by simpa [Instr.wellFormed, ← BitVec.toNat_inj] using h
    simp only [Instr.opcode, Instr.operand] at hw
    refine decodeV_eq_ok_iff.mpr ⟨by omega, by omega, congrArg _ (BitVec.eq_of_toNat_eq ?_)⟩
    rw [toNat_valField]
    omega

/-- A word decodes to no command but the one it is the word of. -/
theorem encode_of_decode {w : Word32} {i : Instr} (h : decode w = .ok i) : encode i = w := by
  have hop := toNat_opField w
  rw [encode_eq_iff]
  unfold decode at h
  split at h
  case h_8 => cases h
  case h_7 =>
    obtain ⟨hz, -, rfl⟩ := decodeV_eq_ok_iff.mp h
    simp only [Instr.opcode, Instr.operand, toNat_valField]
    omega
  case h_3 | h_6 =>
    obtain ⟨hz, rfl⟩ := decodeA_eq_ok_iff.mp h
    simp only [Instr.opcode, Instr.operand, toNat_addrField]
    omega
  all_goals
    obtain ⟨hz, rfl⟩ := decodeN_eq_ok_iff.mp h
    simp only [Instr.opcode, Instr.operand]
    omega

/-! ## The words that do not decode (R70) -/

theorem decodeN_error_iff {w : Word32} {i : Instr} :
    (∃ c, decodeN w i = .error c) ↔ w.toNat % 2 ^ 28 ≠ 0 := by
  rw [decodeN, ne_eq, ← z28Field_eq_zero_iff]
  split <;> simp_all

theorem decodeA_error_iff {w : Word32} {mk : Addr → Instr} :
    (∃ c, decodeA w mk = .error c) ↔ w.toNat / 2 ^ 20 % 2 ^ 8 ≠ 0 := by
  rw [decodeA, ne_eq, ← z8Field_eq_zero_iff]
  split <;> simp_all

theorem decodeV_error_iff {w : Word32} {mk : Micros → Instr} :
    (∃ c, decodeV w mk = .error c) ↔ w.toNat / 2 ^ 16 % 2 ^ 12 ≠ 0 ∨ w.toNat % 2 ^ 16 = 0 := by
  rw [decodeV, ne_eq, ← z12Field_eq_zero_iff, ← valField_eq_zero_iff]
  repeat' split
  all_goals simp_all

/-- The opcode chooses the shape, and the shape the bits that must be 0. -/
theorem decode_error_iff (w : Word32) :
    (∃ c, decode w = .error c) ↔
      (w.toNat / 2 ^ 28 = 0 ∨ 8 ≤ w.toNat / 2 ^ 28) ∨
      ((w.toNat / 2 ^ 28 = 1 ∨ w.toNat / 2 ^ 28 = 2 ∨ w.toNat / 2 ^ 28 = 4 ∨ w.toNat / 2 ^ 28 = 5) ∧
        w.toNat % 2 ^ 28 ≠ 0) ∨
      ((w.toNat / 2 ^ 28 = 3 ∨ w.toNat / 2 ^ 28 = 6) ∧ w.toNat / 2 ^ 20 % 2 ^ 8 ≠ 0) ∨
      (w.toNat / 2 ^ 28 = 7 ∧ w.toNat / 2 ^ 16 % 2 ^ 12 ≠ 0) ∨
      (w.toNat / 2 ^ 28 = 7 ∧ w.toNat % 2 ^ 16 = 0) := by
  rw [decode, toNat_opField]
  generalize w.toNat / 2 ^ 28 = op
  match op with
  | 1 | 2 | 4 | 5 => simpa using decodeN_error_iff
  | 3 | 6 => simpa using decodeA_error_iff
  | 7 => simpa using decodeV_error_iff
  | 0 => simp
  | n + 8 => simp

end Sys2Proof

namespace Sys2Proof.Machine

/-! ## Assembled words (R72, R73) -/

theorem wellFormed_of_mem_readN {a n : Nat} {i : Instr} (h : i ∈ readN a n) : i.wellFormed = true := by
  obtain ⟨k, -, rfl⟩ := List.mem_map.mp h
  rfl

theorem wellFormed_of_mem_capture {i : Instr} (h : i ∈ capture) : i.wellFormed = true := by
  simp only [capture, List.mem_append, List.mem_cons, List.not_mem_nil, or_false] at h
  rcases h with (rfl | hread) | rfl | rfl
  · rfl
  · exact wellFormed_of_mem_readN hread
  · rfl
  · rfl

/-- Every command that the assembler's result holds, if it is one, is well formed. -/
def AllWellFormed (x : Except AsmError (List Instr)) : Prop := ∀ is, x = .ok is → ∀ i ∈ is, i.wellFormed = true

theorem allWellFormed_error (e : AsmError) : AllWellFormed (.error e) := nofun

theorem allWellFormed_ok {is : List Instr} (h : ∀ i ∈ is, i.wellFormed = true) : AllWellFormed (.ok is) := by
  intro js hjs
  cases hjs
  exact h

theorem allWellFormed_plain (cs : List Char) {is : List Instr} (h : ∀ i ∈ is, i.wellFormed = true) :
    AllWellFormed (plain cs is) := by
  unfold plain
  split
  · exact allWellFormed_ok h
  · exact allWellFormed_error _

theorem allWellFormed_map {α : Type} {x : Except AsmError α} {f : α → List Instr}
    (h : ∀ a, x = .ok a → ∀ i ∈ f a, i.wellFormed = true) : AllWellFormed (x.map f) := by
  cases x with
  | error e => exact allWellFormed_error e
  | ok a => exact allWellFormed_ok (h a rfl)

/-- A value operand is in range (R72), so it is not 0 as a setting of `SETTLE` either. -/
theorem ofNat_ne_zero_of_valueOperand {cs : List Char} {n : Nat} (h : valueOperand cs = .ok n) :
    BitVec.ofNat 16 n ≠ 0 := by
  have hn : 1 ≤ n ∧ n ≤ 65535 := by
    unfold valueOperand at h
    repeat' split at h
    all_goals cases h
    assumption
  intro h0
  have hmod : n % 2 ^ 16 = 0 := congrArg BitVec.toNat h0
  omega

/-- Of the commands that a mnemonic can make only `SETSETTLE` has a condition on its operand. -/
theorem allWellFormed_assembleCommand (name cs : List Char) : AllWellFormed (assembleCommand name cs) := by
  have hsingle {i : Instr} (hi : i.wellFormed = true) : ∀ j ∈ [i], j.wellFormed = true := by simpa using hi
  unfold assembleCommand
  split_ifs
  · exact allWellFormed_plain cs (hsingle rfl)
  · exact allWellFormed_plain cs (hsingle rfl)
  · exact allWellFormed_map fun _ _ => hsingle rfl
  · exact allWellFormed_plain cs (hsingle rfl)
  · exact allWellFormed_plain cs (hsingle rfl)
  · exact allWellFormed_map fun _ _ => hsingle rfl
  · exact allWellFormed_map fun _ hv => hsingle (by simpa [Instr.wellFormed] using ofNat_ne_zero_of_valueOperand hv)
  · exact allWellFormed_map fun _ _ _ => wellFormed_of_mem_readN
  · exact allWellFormed_plain cs fun _ => wellFormed_of_mem_capture
  · exact allWellFormed_error _

theorem allWellFormed_assembleLine (cs : List Char) : AllWellFormed (assembleLine cs) := by
  unfold assembleLine
  dsimp only
  split
  · exact allWellFormed_ok nofun
  · exact allWellFormed_assembleCommand _ _

/-! ## The obligations -/

/-- Settles O1: the opcode and the operand, side by side in the word, are what the decoder takes apart. -/
theorem decodeOfEncode : Obligations.DecodeOfEncode := fun _ => decode_encode

/-- Settles O2: an opcode, bits that are 0 and an operand leave no bit of the word free. -/
theorem encodeOfDecode : Obligations.EncodeOfDecode :=
  fun _ _ h => ⟨wellFormed_of_decode h, encode_of_decode h⟩

/-- Settles O5: the words of a line are those of well-formed commands, and each decodes to its command. -/
theorem assembledWordsAreLegal : Obligations.AssembledWordsAreLegal := by
  intro line ws h w hw
  unfold assembleWords at h
  cases hline : assembleLine line with
  | error e => rw [hline] at h; cases h
  | ok is =>
    rw [hline] at h
    cases h
    obtain ⟨i, hi, rfl⟩ := List.mem_map.mp hw
    have hwf := allWellFormed_assembleLine line is hline i hi
    exact ⟨i, decode_encode hwf, hwf⟩

/-- Settles O6: within the space no address of `READN` wraps around. -/
theorem readnAddressesAscend : Obligations.ReadnAddressesAscend := by
  intro a n hn hmax
  refine ⟨length_readN a n, fun k hk => ⟨_, readN_getElem? hk, ?_⟩⟩
  rw [BitVec.toNat_ofNat]
  exact Nat.mod_eq_of_lt (by omega)

/-- Settles O4, each word by evaluation. -/
theorem writtenOutWordsDecode : Obligations.WrittenOutWordsDecode := by
  unfold Obligations.WrittenOutWordsDecode
  decide

end Sys2Proof.Machine
end

section
/-! PROOFS. What every edge leaves to the board and the agents outside (R45 to R49, R105), and the edges that run no command:
the reset (R128) and the idle block's (R131). -/

namespace Sys2Proof.Machine

/-! ## What every edge leaves to the board and the agents (R45, R46, R104) -/

/-- From `s` to `u`: what the block's own part of an edge never touches. -/
structure State.OutsideFrame (s u : State) : Prop where
  params : u.params = s.params
  host : u.host = s.host
  target : u.target = s.target
  latch : u.board.latch = s.board.latch
  openFor : u.board.openFor = s.board.openFor
  edge : u.board.edge = s.board.edge

/-- Every edge is the block's own part followed by the board and the agents. -/
theorem step_shape {s t : State} (h : step s = .next t) : ∃ u, s.OutsideFrame u ∧ t = s.environment u := by
  rcases step_cases h with ⟨-, rfl⟩ | ⟨-, -, -, u, hu, rfl⟩ | ⟨-, -, rfl⟩
  · refine ⟨_, ?_, rfl⟩
    exact ⟨rfl, rfl, rfl, rfl, rfl, rfl⟩
  · obtain ⟨b, r, hd, -⟩ := dispatch_answers s.host.pins.cmdWord s.quiet
    cases hd.symm.trans hu
    refine ⟨_, ?_, rfl⟩
    exact ⟨rfl, rfl, rfl, rfl, rfl, rfl⟩
  · obtain ⟨b, r, hd, -⟩ := phaseEdge_shape s.quiet
    rw [hd]
    refine ⟨_, ?_, rfl⟩
    exact ⟨rfl, rfl, rfl, rfl, rfl, rfl⟩

theorem params_of_step {s t : State} (h : step s = .next t) : t.params = s.params := by
  obtain ⟨u, hu, rfl⟩ := step_shape h
  exact hu.params

theorem mem_of_step {s t : State} (h : step s = .next t) : t.target.mem = s.target.mem := by
  rw [(target_of_step h).1, answer_mem]

/-- The latch captures where the block lowers a high `ALE`, and keeps its value everywhere else (R45). -/
theorem latch_of_step {s t : State} (h : step s = .next t) : t.board.latch =
    if s.blk.lines.ale.drives true && t.blk.lines.ale.drives false then s.adPins else s.board.latch := by
  obtain ⟨u, hu, rfl⟩ := step_shape h
  rw [← hu.latch]
  rfl

/-- The read window's age counts the edges since it opened (R47). -/
theorem openFor_of_step {s t : State} (h : step s = .next t) :
    t.board.openFor = if t.blk.lines.readWindow then s.board.openFor + 1 else 0 := by
  obtain ⟨u, hu, rfl⟩ := step_shape h
  rw [← hu.openFor]
  rfl

/-- Without planned levels the pin changes only to the level of `HOLD` (R46). -/
theorem hlda_of_answer {x : Target} {hold : Level} (hp : x.plan = []) (hne : (x.answer hold).hlda ≠ x.hlda) :
    (x.answer hold).hlda = hold := by
  revert hne
  unfold Target.answer
  rw [hp]
  dsimp only
  split
  · exact fun hne => absurd rfl hne
  · split
    · exact fun hne => absurd rfl hne
    · split
      · cases hx : x.hlda <;> cases hold <;> simp_all
      · exact fun hne => absurd rfl hne

/-- Settles O54: the target's answer keeps the memory, and the block's part of an edge the rest. -/
theorem targetMemoryNeverWritten : Obligations.TargetMemoryNeverWritten :=
  fun _ _ h => ⟨params_of_step h, fun _ => by rw [mem_of_step h]⟩

/-- Settles O55: the answer is to the `HOLD` that the edge leaves. -/
theorem targetKeepsHandshake : Obligations.TargetKeepsHandshake := by
  intro s t hp h
  obtain ⟨ht, -⟩ := target_of_step h
  have hfollow (hne : t.target.hlda ≠ s.target.hlda) : t.target.hlda = t.blk.holdO := by
    rw [ht] at hne ⊢
    exact hlda_of_answer hp hne
  exact ⟨fun hs hn => (hfollow (by simp [hs, hn])).symm.trans hn, fun hs hn => (hfollow (by simp [hs, hn])).symm.trans hn⟩

/-- With a word on the port, no forced levels and no acceptance, the host only lowers `rst` (R105). -/
theorem following_of_held_word {p : HostPort} (hf : p.forced = []) (hv : p.pins.cmdValid = true) :
    p.following false = { p with pins := { p.pins with rst := false } } := by
  simp [HostPort.following, hf, hv]

/-- Settles O56: the host follows what the edge accepted. -/
theorem hostHoldsUnacceptedWord : Obligations.HostHoldsUnacceptedWord := by
  intro s t hf hv ha h
  rw [host_of_step h, ha, following_of_held_word hf hv]
  exact ⟨hv, rfl, rfl⟩

/-! ## The phase in progress by name (R43) -/

theorem phaseEdge_of_idle {s : State} (h : s.blk.ph = .idle) : s.phaseEdge = s := by
  rw [State.phaseEdge, h]

theorem phaseEdge_of_acqWait {s : State} (h : s.blk.ph = .acqWait) : s.phaseEdge = s.acqWaitEdge := by
  rw [State.phaseEdge, h]

theorem phaseEdge_of_relHold {s : State} (h : s.blk.ph = .relHold) : s.phaseEdge = s.relHoldEdge := by
  rw [State.phaseEdge, h]

theorem phaseEdge_of_relWait {s : State} (h : s.blk.ph = .relWait) : s.phaseEdge = s.relWaitEdge := by
  rw [State.phaseEdge, h]

/-! ## Every edge, and the edges without a command -/

/-- Settles O8: the three kinds of edge leave none out. -/
theorem everyEdgeAnswers : Obligations.EveryEdgeAnswers := by
  intro s
  cases hr : s.host.pins.rst with
  | true => exact ⟨_, step_of_rst hr⟩
  | false =>
    cases ha : s.accepts with
    | true =>
      obtain ⟨b, r, hd, -⟩ := dispatch_answers s.host.pins.cmdWord s.quiet
      exact ⟨_, step_of_accepts ha hd⟩
    | false => exact ⟨_, step_of_phase hr ha⟩

/-- Settles O7: the dispatch of a legal word is `exec` of its command. -/
theorem stepRunsDecodedCommand : Obligations.StepRunsDecodedCommand := by
  intro s t i ha h
  refine ⟨wellFormed_of_decode ha.2, step_of_accepts ha.1 ?_⟩
  rw [dispatch, ha.2]
  exact h

/-- Settles O10: without a word the idle block's phase does nothing, and the lines stay. -/
theorem idleBlockStartsNothing : Obligations.IdleBlockStartsNothing := by
  intro s hp hr hv
  have ha : s.accepts = false := by simp [State.accepts, hv]
  refine ⟨_, step_of_phase hr ha, ?_⟩
  rw [phaseEdge_of_idle (s := s.quiet) hp]
  exact ⟨rfl, latchAfter_of_ale rfl, rfl⟩

/-- Settles O12: the block of R48, whose lines all float. -/
theorem resetEdgeSetsEveryRegister : Obligations.ResetEdgeSetsEveryRegister := by
  intro s hr
  have hfloat : Lines.reset.allFloating := Lines.allFloating_of_controlDir Lines.reset_controlDir rfl
  have hstep := step_of_rst hr
  have hlatch : (s.environment s.resetEdge).board.latch = s.board.latch := by
    rw [latch_of_step hstep, if_neg]
    simp [Line.drives, Block.reset, Lines.reset]
  exact ⟨by simp [State.cmdReady, hr], _, hstep, hlatch, rfl, hfloat, rfl, rfl, rfl, rfl, rfl, rfl, rfl, rfl⟩

end Sys2Proof.Machine
end

section
/-! PROOFS. What a command writes at its accepting edge and what it leaves (R71, R75 to R102), and the whole effect of a
rejection (R70, R114). -/

namespace Sys2Proof.Machine

/-! ## A rejection (R114) -/

/-- Settles O25: the edge is the rejection, which moves no line. -/
theorem rejectionHasNoOtherEffect : Obligations.RejectionHasNoOtherEffect := by
  intro s c ha hc
  have hstep := step_of_accepts ha (dispatch_of_rejectCode (s := s.quiet) hc)
  exact ⟨_, hstep, (accepts_iff.mp ha).2.1, rfl, latchAfter_of_ale rfl, rfl, fun _ => by rw [mem_of_step hstep]⟩

/-- Settles O3: the words without a command by number, and the whole effect of a rejection. -/
theorem illegalWords : Obligations.IllegalWords := by
  refine ⟨decode_error_iff, fun s c ha hd => ?_⟩
  obtain ⟨t, hstep, -, hblk, hlatch, hrecorder, -⟩ :=
    rejectionHasNoOtherEffect s .illegal ha (rejectCode_of_illegal hd s.blk.own)
  exact ⟨t, hstep, hblk, hlatch, hrecorder⟩

/-! ## Commands at their accepting edge (R71) -/

/-- Settles O29: `ACQUIRE` is allowed while `Released`, so it is performed. -/
theorem acquireRequestsBus : Obligations.AcquireRequestsBus :=
  fun s ho => exec_of_stateOk (s := s) rfl (by simp [stateOk, ho])

/-- Settles O33: floating the address and the control lines is floating them all. -/
theorem releaseFloatsEveryLine : Obligations.ReleaseFloatsEveryLine := by
  intro s ho
  refine ⟨_, exec_of_stateOk (i := .release) rfl (by simp [stateOk, ho]),
    Lines.allFloating_of_controlDir (Lines.floatControl_controlDir _) rfl, fun x => ?_,
    rfl, rfl, rfl, rfl, rfl, rfl⟩
  cases x <;> rfl

/-- Settles O38: `DRIVE` is allowed while `Held`, so it is performed. -/
theorem drivePutsAddressOnLines : Obligations.DrivePutsAddressOnLines :=
  fun s _ ho => exec_of_stateOk (s := s) rfl (by simp [stateOk, ho])

/-- Settles O39: `FLOAT` is allowed while `Held`, so it is performed. -/
theorem floatReleasesAddressLines : Obligations.FloatReleasesAddressLines :=
  fun s ho => exec_of_stateOk (s := s) rfl (by simp [stateOk, ho])

/-- Settles O41: `SAMPLE` is allowed while `Held`, so it is performed. -/
theorem sampleReadsDataLines : Obligations.SampleReadsDataLines :=
  fun s ho => exec_of_stateOk (s := s) rfl (by simp [stateOk, ho])

/-- Settles O44: `SETSETTLE` is allowed in any ownership state, so it is performed. -/
theorem setsettleWritesSettle : Obligations.SetsettleWritesSettle :=
  fun s _ hn => exec_of_stateOk (s := s) (by simpa [Instr.wellFormed] using hn) rfl

/-- Settles O45: `READ` is allowed while `Held`, so it is performed. -/
theorem readStartsCycle : Obligations.ReadStartsCycle :=
  fun s _ ho => exec_of_stateOk (s := s) rfl (by simp [stateOk, ho])

/-- Settles O27: `stateOk` is the table of R71, and `SETSETTLE` is allowed everywhere. -/
theorem badStateRejections : Obligations.BadStateRejections := by
  intro s a
  have hrefused {i : Instr} (hi : stateOk i s.blk.own = (s.blk.own == .held)) (ho : s.blk.own ≠ .held) :
      exec i s = .next (s.reject .badState) := exec_badState (by simpa [hi] using ho)
  refine ⟨fun ho => exec_badState (by simpa [stateOk] using ho),
    fun ho => ⟨hrefused rfl ho, hrefused rfl ho, hrefused rfl ho, hrefused rfl ho, hrefused rfl ho⟩, ?_, rfl, rfl⟩
  intro n t h
  simp only [exec, execSetsettle] at h
  split at h <;> cases h <;> nofun

/-- `exec` performs the command, or only rejects the word. -/
theorem exec_kinds {i : Instr} {s t : State} (h : exec i s = .next t) :
    (stateOk i s.blk.own = true ∧ t = s.perform i) ∨
    (¬(stateOk i s.blk.own = true ∧ i.wellFormed = true) ∧ ∃ c, t = s.reject c) := by
  cases hw : i.wellFormed with
  | true =>
    refine (exec_cases hw h).imp_right fun ⟨hrefused, ht⟩ => ⟨by simp [hrefused], _, ht⟩
  | false =>
    refine .inr ⟨by simp, ?_⟩
    cases i with
    | setsettle n =>
      have h0 : n = 0 := by simpa [Instr.wellFormed] using hw
      rw [exec, execSetsettle, if_pos h0] at h
      cases h
      exact ⟨_, rfl⟩
    | _ => cases hw

/-- No command touches the synchroniser, nor anything outside the block but the record. -/
theorem perform_outsideFrame (s : State) (i : Instr) :
    s.OutsideFrame (s.perform i) ∧ (s.perform i).blk.s1 = s.blk.s1 ∧ (s.perform i).blk.s2 = s.blk.s2 := by
  cases i <;> exact ⟨⟨rfl, rfl, rfl, rfl, rfl, rfl⟩, rfl, rfl⟩

theorem perform_settle (s : State) {i : Instr} (h : ∀ n, i ≠ .setsettle n) :
    (s.perform i).blk.settle = s.blk.settle := by
  cases i with
  | setsettle n => exact absurd rfl (h n)
  | _ => rfl

theorem perform_data (s : State) {i : Instr} (h : i ≠ .sample) : (s.perform i).blk.data = s.blk.data := by
  cases i with
  | sample => exact absurd rfl h
  | _ => rfl

theorem perform_opnd_cnt (s : State) {i : Instr} (h : ∀ a, i ≠ .read a) :
    (s.perform i).blk.opnd = s.blk.opnd ∧ (s.perform i).blk.cnt = s.blk.cnt := by
  cases i with
  | read a => exact absurd rfl (h a)
  | _ => exact ⟨rfl, rfl⟩

theorem perform_own_holdO (s : State) {i : Instr} (h : i ≠ .acquire) :
    (s.perform i).blk.own = s.blk.own ∧ (s.perform i).blk.holdO = s.blk.holdO := by
  cases i with
  | acquire => exact absurd rfl h
  | _ => exact ⟨rfl, rfl⟩

/-- The commands that answer at a later edge (R71). -/
def Waiting (i : Instr) : Prop := i = .acquire ∨ i = .release ∨ ∃ a, i = .read a

/-- A command either leaves `IDLE` and the response as it was, or stays there and answers (R42, R43). -/
theorem perform_response (s : State) (i : Instr) :
    (Waiting i ∧ (s.perform i).blk.ph ≠ .idle ∧ (s.perform i).blk.rspValid = s.blk.rspValid ∧
      (s.perform i).blk.rspStatus = s.blk.rspStatus ∧ (s.perform i).blk.rspData = s.blk.rspData) ∨
    (¬ Waiting i ∧ (s.perform i).blk.ph = s.blk.ph ∧ (s.perform i).blk.rspValid = true) := by
  cases i with
  | acquire => exact .inl ⟨.inl rfl, nofun, rfl, rfl, rfl⟩
  | release => exact .inl ⟨.inr (.inl rfl), nofun, rfl, rfl, rfl⟩
  | read a => exact .inl ⟨.inr (.inr ⟨a, rfl⟩), nofun, rfl, rfl, rfl⟩
  | drive | float | sample | setsettle => exact .inr ⟨by simp [Waiting], rfl, rfl⟩

/-- Only `RELEASE` touches a control line (R35). -/
theorem perform_control (s : State) {i : Instr} (h : i ≠ .release) :
    ∀ x ∈ [SwLine.ale, .denN, .dtR, .ioM, .rdN, .wrN],
      (s.perform i).blk.lines.dir x = s.blk.lines.dir x ∧ (s.perform i).blk.lines.out x = s.blk.lines.out x := by
  cases i with
  | release => exact absurd rfl h
  | _ => simp [State.perform, Lines.dir, Lines.out]

theorem perform_lines (s : State) {i : Instr} (h : i = .acquire ∨ i = .sample ∨ ∃ n, i = .setsettle n) :
    (s.perform i).blk.lines = s.blk.lines := by
  rcases h with rfl | rfl | ⟨n, rfl⟩ <;> rfl

/-- `RELEASE` and `FLOAT` keep every level (R78, R83). -/
theorem perform_out (s : State) {i : Instr} (h : i = .release ∨ i = .float) (x : SwLine) :
    (s.perform i).blk.lines.out x = s.blk.lines.out x := by
  rcases h with rfl | rfl <;> cases x <;> rfl

/-- Settles O53: a rejection writes the response and `ERR` only; what a performed command writes is said above, register by
register. -/
theorem execFrame : Obligations.ExecFrame := by
  intro i s t h
  rcases exec_kinds h with ⟨-, rfl⟩ | ⟨hno, c, rfl⟩
  · obtain ⟨⟨hparams, hhost, htarget, hlatch, -, hedge⟩, hs1, hs2⟩ := perform_outsideFrame s i
    refine ⟨hparams, hhost, htarget, fun _ => by rw [htarget], hlatch, hedge, hs1, hs2, perform_settle s, perform_data s,
      perform_opnd_cnt s, perform_own_holdO s, fun ha hr hrd => ?_, fun hw _ => ?_, perform_control s, perform_lines s,
      perform_out s, fun _ _ => perform_err s i⟩
    · rcases perform_response s i with ⟨ha' | hr' | ⟨a, hrd'⟩, -⟩ | ⟨-, hph, -⟩
      · exact absurd ha' ha
      · exact absurd hr' hr
      · exact absurd hrd' (hrd a)
      · exact hph
    · rcases perform_response s i with ⟨-, -, hkept⟩ | ⟨hn, -⟩
      · exact hkept
      · exact absurd hw hn
  · have hok (hw : Waiting i) : stateOk i s.blk.own ≠ true := by
      intro hok
      rcases hw with rfl | rfl | ⟨a, rfl⟩ <;> exact hno ⟨hok, rfl⟩
    exact ⟨rfl, rfl, rfl, fun _ => rfl, rfl, rfl, rfl, rfl, fun _ => rfl, fun _ => rfl, fun _ => ⟨rfl, rfl⟩,
      fun _ => ⟨rfl, rfl⟩, fun _ _ _ => rfl, fun hw h' => absurd h' (hok hw), fun _ _ _ => ⟨rfl, rfl⟩, fun _ => rfl,
      fun _ _ => rfl, fun h' hw => absurd ⟨h', hw⟩ hno⟩

end Sys2Proof.Machine
end

section
/-! PROOFS. The outcomes of the phase in progress (R43), and the edges that write `SETTLE`, `DATA` and the response (R36, R37,
R42). -/

namespace Sys2Proof.Machine

/-! ## The phase in progress (R43) -/

/-- What holds of every outcome of the phase in progress holds of its edge: nothing happens, or the grant, or the fall of
`HOLD`, or the withdrawal, or a count, or a transition of `READ`. -/
theorem phaseEdge_induction {P : State → Prop} {s : State}
    (still : s.blk.ph.reading = false → P s)
    (grant : s.blk.ph = .acqWait → s.blk.s2 = true →
      P ((((s.driveControl).setOwn .held).setPhase .idle).respond .ok 0))
    (lower : s.blk.ph = .relHold → P s.relHoldEdge)
    (withdraw : s.blk.ph = .relWait → s.blk.s2 = false →
      P (((s.setOwn .released).setPhase .idle).respond .ok 0))
    (count : s.blk.ph.reading = true → s.blk.cnt ≠ 0 → P { s with blk := { s.blk with cnt := s.blk.cnt - 1 } })
    (advance : s.blk.ph.reading = true → s.blk.cnt = 0 → P s.cycleEnd) : P s.phaseEdge := by
  rcases phaseEdge_kinds s with ⟨hp, he⟩ | ⟨hp, he⟩ | ⟨hp, he⟩ | ⟨hp, he⟩ | ⟨hr, he⟩ <;> rw [he]
  · exact still (congrArg Phase.reading hp)
  · cases h2 : s.blk.s2 with
    | true => exact acqWaitEdge_of_ack h2 ▸ grant hp h2
    | false => exact (acqWaitEdge_of_noAck h2).symm ▸ still (congrArg Phase.reading hp)
  · exact lower hp
  · cases h2 : s.blk.s2 with
    | true => exact (relWaitEdge_of_ack h2).symm ▸ still (congrArg Phase.reading hp)
    | false => exact relWaitEdge_of_noAck h2 ▸ withdraw hp h2
  · by_cases hc : s.blk.cnt = 0
    · exact countdown_of_zero hc ▸ advance hr hc
    · exact countdown_of_pos hc ▸ count hr hc

/-- No phase writes `SETTLE` (R36). -/
theorem phaseEdge_settle (s : State) : s.phaseEdge.blk.settle = s.blk.settle :=
  phaseEdge_induction (P := fun u => u.blk.settle = s.blk.settle) (fun _ => rfl) (fun _ _ => rfl) (fun _ => rfl)
    (fun _ _ => rfl) (fun _ _ => rfl) (fun _ _ => (cycleEnd_readFrame s).settle)

theorem cycleEnd_data_of_ne {s : State} (h : s.blk.ph ≠ .rcSettle) : s.cycleEnd.blk.data = s.blk.data := by
  unfold State.cycleEnd
  cases hp : s.blk.ph with
  | rcSettle => exact absurd hp h
  | _ => rfl

/-- Of the phases only `RC_SETTLE` at its end writes `DATA` (R37, R95). -/
theorem phaseEdge_data {s : State} (h : ¬(s.blk.ph = .rcSettle ∧ s.blk.cnt = 0)) :
    s.phaseEdge.blk.data = s.blk.data :=
  phaseEdge_induction (P := fun u => u.blk.data = s.blk.data) (fun _ => rfl) (fun _ _ => rfl) (fun _ => rfl)
    (fun _ _ => rfl) (fun _ _ => rfl) (fun _ hc => cycleEnd_data_of_ne fun hp => h ⟨hp, hc⟩)

/-- From `s` to `u` inside a command: a response exactly where the phase is `IDLE` again, and else the old status and data. -/
def State.AnswersAtIdle (s u : State) : Prop :=
  (u.blk.rspValid = true ∧ u.blk.ph = .idle) ∨
  (u.blk.rspValid = false ∧ u.blk.ph ≠ .idle ∧ u.blk.rspStatus = s.blk.rspStatus ∧ u.blk.rspData = s.blk.rspData)

theorem cycleEnd_answersAtIdle {s : State} (h : s.blk.ph.reading = true) (hv : s.blk.rspValid = false) :
    s.AnswersAtIdle s.cycleEnd := by
  revert h
  unfold State.cycleEnd
  cases hp : s.blk.ph with
  | idle | acqWait | relHold | relWait => exact nofun
  | rcRdOff => exact fun _ => .inl ⟨rfl, rfl⟩
  | _ => exact fun _ => .inr ⟨hv, nofun, rfl, rfl⟩

/-- A busy block's phase answers exactly where it returns to `IDLE` (R42). -/
theorem phaseEdge_answersAtIdle {s : State} (hp : s.blk.ph ≠ .idle) (hv : s.blk.rspValid = false) :
    s.AnswersAtIdle s.phaseEdge :=
  phaseEdge_induction (P := s.AnswersAtIdle) (fun _ => .inr ⟨hv, hp, rfl, rfl⟩) (fun _ _ => .inl ⟨rfl, rfl⟩)
    (fun _ => .inr ⟨hv, nofun, rfl, rfl⟩) (fun _ _ => .inl ⟨rfl, rfl⟩) (fun _ _ => .inr ⟨hv, hp, rfl, rfl⟩)
    (fun hr _ => cycleEnd_answersAtIdle hr hv)

/-! ## Who writes `SETTLE`, `DATA` and the response -/

/-- Settles O22: of the four kinds of edge only the reset and a performed `SETSETTLE` write `SETTLE`. -/
theorem settleWrittenOnlyBySetsettle : Obligations.SettleWrittenOnlyBySetsettle := by
  intro s t h hne
  rcases step_kinds h with ⟨hr, -⟩ | ⟨c, -, -, rfl⟩ | ⟨i, ha, -, -, rfl⟩ | ⟨-, -, rfl⟩
  · exact .inl hr
  · exact absurd rfl hne
  · by_cases hi : ∃ n, i = .setsettle n
    · obtain ⟨n, rfl⟩ := hi
      exact .inr ha
    · exact absurd (perform_settle s.quiet fun n hn => hi ⟨n, hn⟩) hne
  · exact absurd (phaseEdge_settle s.quiet) hne

/-- Settles O23: of the four kinds of edge only the reset, a performed `SAMPLE` and T7 write `DATA`. -/
theorem dataWrittenOnlyBySamples : Obligations.DataWrittenOnlyBySamples := by
  intro s t h hne
  rcases step_kinds h with ⟨hr, -⟩ | ⟨c, -, -, rfl⟩ | ⟨i, ha, hok, -, rfl⟩ | ⟨-, -, rfl⟩
  · exact .inl hr
  · exact absurd rfl hne
  · by_cases hi : i = .sample
    · subst hi
      exact .inr (.inl ⟨ha, by simpa [stateOk] using hok⟩)
    · exact absurd (perform_data s.quiet hi) hne
  · by_cases hT7 : s.blk.ph = .rcSettle ∧ s.blk.cnt = 0
    · exact .inr (.inr hT7)
    · exact absurd (phaseEdge_data (s := s.quiet) hT7) hne

/-- Settles O24: a rejection answers in `IDLE`; a performed command and a busy phase answer exactly in `IDLE`; and an idle
block's edge answers nothing. -/
theorem responseAtCompletion : Obligations.ResponseAtCompletion := by
  intro s t hr h
  rcases step_kinds h with ⟨hr', -⟩ | ⟨c, ha, -, rfl⟩ | ⟨i, ha, -, -, rfl⟩ | ⟨ha, -, rfl⟩
  · exact absurd (hr.symm.trans hr') Bool.false_ne_true
  · exact ⟨by simp [ha, (accepts_iff.mp ha).2.1], nofun⟩
  · rcases perform_response s.quiet i with ⟨-, hbusy, hv, hkept⟩ | ⟨-, hidle, hv⟩
    · exact ⟨by simp [hbusy, hv], fun _ => hkept⟩
    · exact ⟨by simp [ha.1, ha.idle, hidle, hv], fun hn => absurd hv (Bool.eq_false_iff.mp hn)⟩
  · by_cases hp : s.blk.ph = .idle
    · simp [phaseEdge_of_idle (s := s.quiet) hp, ha, hp]
    · rcases phaseEdge_answersAtIdle (s := s.quiet) hp rfl with ⟨hv, hidle⟩ | ⟨hv, hbusy, hkept⟩
      · simp [hv, hidle, hp]
      · simpa [hv, hbusy] using hkept

end Sys2Proof.Machine
end

section
/-! PROOFS. The invariant (R29, R33 to R36, R43, R88, R94): the reset block meets it, and every edge keeps it, clause group by
clause group. -/

namespace Sys2Proof.Machine

/-! ## The block after reset (R48, R128) -/

/-- The block of R48 meets the invariant on every board in range with a closed read window. -/
theorem inv_of_resetBlock {s : State} (hb : s.blk = Block.reset) (hp : s.params.Ok) (ho : s.board.openFor = 0)
    (hm : s.target.mem.wf = true) : s.Inv := by
  obtain ⟨b, p, host, target, board⟩ := s
  subst hb
  exact {
    phaseCycles := hp.1
    ticksPerUs := hp.2
    settle := (by decide : (1#16) ≠ 0)
    requested := ⟨nofun, nofun⟩
    held := fun h => h.elim nofun nofun
    hold := rfl
    aleDir := rfl
    denDir := rfl
    dtDir := rfl
    ioDir := rfl
    rdDir := rfl
    wrDir := rfl
    aleOut := rfl
    rdOut := rfl
    denOut := rfl
    wrOut := rfl
    ioOut := rfl
    dtOut := rfl
    adFloating := fun _ => rfl
    adFull := nofun
    adHigh := nofun
    adIdle := .inl rfl
    adOut := nofun
    latch := nofun
    cntIdle := fun _ => rfl
    cntPhase := nofun
    cntSettle := nofun
    openClosed := fun _ => ho
    openSettle := nofun
    rspIdle := nofun
    rspReject := fun h => absurd rfl h
    memory := hm }

/-- Settles O13: the block of R48 on a board in range. -/
theorem resetMeetsInvariant : Obligations.ResetMeetsInvariant :=
  inv_of_resetBlock rfl ⟨le_rfl, le_rfl⟩ rfl State.reset_memory_wf

/-! ## Ownership and `HOLD` in each phase (R33, R43, R75, R78) -/

/-- `OWN` and `HOLD` agree with the phase. -/
structure Block.Arbitrated (b : Block) : Prop where
  requested : b.own = .requested ↔ b.ph = .acqWait
  held : b.ph.reading = true ∨ b.ph.releasing = true → b.own = .held
  hold : b.holdO = decide (b.own ≠ .released ∧ b.ph ≠ .relWait)

theorem arbitrated_of_perform {s : State} {i : Instr} (h : s.blk.Arbitrated) (hp : s.blk.ph = .idle)
    (hok : stateOk i s.blk.own = true) : (s.perform i).blk.Arbitrated := by
  obtain ⟨hreq, hheld, hhold⟩ := h
  cases i with
  | acquire => exact ⟨by simp [State.perform], nofun, rfl⟩
  | release | read =>
    have ho : s.blk.own = .held := by simpa [stateOk] using hok
    constructor <;> simp [State.perform, ho, hp, hhold]
  | drive | float | sample | setsettle => exact ⟨hreq, hheld, hhold⟩

theorem cycleEnd_arbitrated {s : State} (h : s.blk.Arbitrated) (hr : s.blk.ph.reading = true) :
    s.cycleEnd.blk.Arbitrated := by
  have hframe := cycleEnd_readFrame s
  have ho : s.blk.own = .held := h.held (.inl hr)
  have hbefore : s.blk.ph ≠ .relWait := by
    intro hp
    simp [hp, Phase.reading] at hr
  have hafter : s.blk.ph.after ≠ .acqWait ∧ s.blk.ph.after ≠ .relWait := by cases s.blk.ph <;> decide
  have hp := cycleEnd_ph hr
  constructor
  · simp [hframe.own, ho, hp, hafter]
  · simp [hframe.own, ho]
  · simp [hframe.own, hframe.holdO, ho, hp, hafter, hbefore, h.hold]

theorem phaseEdge_arbitrated {s : State} (h : s.blk.Arbitrated) : s.phaseEdge.blk.Arbitrated := by
  refine phaseEdge_induction (P := fun u => u.blk.Arbitrated) (fun _ => h) (fun hp _ => ?_) (fun hp => ?_)
    (fun hp _ => ?_) (fun _ _ => ⟨h.requested, h.held, h.hold⟩) (fun hr _ => cycleEnd_arbitrated h hr)
  · have ho : s.blk.own = .requested := h.requested.mpr hp
    exact ⟨⟨nofun, nofun⟩, fun _ => rfl, by simp [h.hold, ho, hp]⟩
  · have ho : s.blk.own = .held := h.held (.inr (congrArg Phase.releasing hp))
    constructor <;> simp [State.relHoldEdge, ho]
  · exact ⟨⟨nofun, nofun⟩, fun h => h.elim nofun nofun, by simp [h.hold, hp]⟩

theorem arbitrated_of_step {s t : State} (hi : s.Inv) (hr : s.host.pins.rst = false) (h : step s = .next t) :
    t.blk.Arbitrated := by
  have hq : s.quiet.blk.Arbitrated := ⟨hi.requested, hi.held, hi.hold⟩
  have hshift {u : State} (hu : u.blk.Arbitrated) : (s.environment u.syncShift).blk.Arbitrated :=
    ⟨hu.requested, hu.held, hu.hold⟩
  rcases step_kinds h with ⟨hr', -⟩ | ⟨c, -, -, rfl⟩ | ⟨i, ha, hok, -, rfl⟩ | ⟨-, -, rfl⟩
  · exact absurd (hr.symm.trans hr') Bool.false_ne_true
  · exact hshift ⟨hq.requested, hq.held, hq.hold⟩
  · exact hshift (arbitrated_of_perform hq ha.idle hok)
  · exact hshift (phaseEdge_arbitrated hq)

/-! ## The strobes in each phase (R91, R93, R98) -/

/-- The strobes have the levels of phase `p`, and the address lines one of the three patterns of directions. -/
structure Lines.Strobed (l : Lines) (p : Phase) : Prop where
  ale : l.ale.out = decide (p = .rcAleLo)
  rdN : l.rdN.out = !p.readStrobe
  denN : l.denN.out = !p.bufferOn
  ad : l.ad.driven = 0 ∨ l.ad.driven = 0xFFFFF ∨ l.ad.driven = 0xFFF00

theorem State.Inv.strobed {s : State} (hi : s.Inv) : s.blk.lines.Strobed s.blk.ph :=
  ⟨hi.aleOut, hi.rdOut, hi.denOut, hi.adIdle⟩

/-- Outside a `READ`, and before T2, the strobes are idle. -/
theorem Lines.Strobed.of_idle {l : Lines} {p q : Phase} (h : l.Strobed p)
    (hp : p = .rcAleHi ∨ p.reading = false) (hq : q = .rcAleHi ∨ q.reading = false) : l.Strobed q := by
  have hidle : ∀ {r : Phase}, r = .rcAleHi ∨ r.reading = false →
      decide (r = .rcAleLo) = false ∧ r.readStrobe = false ∧ r.bufferOn = false := by
    intro r
    cases r <;> decide
  obtain ⟨hale, hrd, hden⟩ := hidle hp
  obtain ⟨hale', hrd', hden'⟩ := hidle hq
  exact ⟨hale' ▸ hale ▸ h.ale, hrd' ▸ hrd ▸ h.rdN, hden' ▸ hden ▸ h.denN, h.ad⟩

theorem strobed_of_perform {s : State} (hs : s.blk.lines.Strobed s.blk.ph) (hp : s.blk.ph = .idle) (i : Instr) :
    (s.perform i).blk.lines.Strobed (s.perform i).blk.ph := by
  have hidle {q : Phase} (hq : q = .rcAleHi ∨ q.reading = false) : s.blk.lines.Strobed q :=
    hs.of_idle (.inr (congrArg Phase.reading hp)) hq
  cases i with
  | acquire => exact hidle (.inr rfl)
  | release =>
    have h := hidle (q := .relHold) (.inr rfl)
    exact ⟨h.ale, h.rdN, h.denN, .inl rfl⟩
  | read a =>
    have h := hidle (q := .rcAleHi) (.inl rfl)
    exact ⟨h.ale, h.rdN, h.denN, .inr (.inl rfl)⟩
  | drive a => exact ⟨hs.ale, hs.rdN, hs.denN, .inr (.inl rfl)⟩
  | float => exact ⟨hs.ale, hs.rdN, hs.denN, .inl rfl⟩
  | sample | setsettle => exact hs

theorem Phase.strobed_cycleLines (p : Phase) (a : Addr) : (p.cycleLines a).Strobed p := by
  refine ⟨rfl, rfl, rfl, ?_⟩
  cases h : p.fullAddress <;> simp [Phase.cycleLines, Phase.lines, h]

/-- The invariant fixes every switchable line in a `READ` (R88, R98). -/
theorem State.Inv.cycleLines {s : State} (hi : s.Inv) (hr : s.blk.ph.reading = true) :
    s.blk.lines = s.blk.ph.cycleLines s.blk.opnd := by
  have hout := hi.adOut hr
  have hdriven : s.blk.lines.ad.driven = if s.blk.ph.fullAddress then 0xFFFFF else 0xFFF00 := by
    split
    case isTrue hf => exact hi.adFull hf
    case isFalse hf => exact hi.adHigh ((reading_iff.mp hr).resolve_left hf)
  have had : s.blk.lines.ad = ⟨if s.blk.ph.fullAddress then 0xFFFFF else 0xFFF00, s.blk.opnd⟩ := by
    rw [← hdriven, ← hout]
  rw [Phase.cycleLines, ← had]
  exact hi.lines_of_on (hi.controlOn_of_running (.inl hr))

theorem strobed_of_step {s t : State} (hi : s.Inv) (hr : s.host.pins.rst = false) (h : step s = .next t) :
    t.blk.lines.Strobed t.blk.ph := by
  have hs := hi.strobed
  rcases step_kinds h with ⟨hr', -⟩ | ⟨c, -, -, rfl⟩ | ⟨i, ha, -, -, rfl⟩ | ⟨-, -, rfl⟩
  · exact absurd (hr.symm.trans hr') Bool.false_ne_true
  · exact hs
  · exact strobed_of_perform (s := s.quiet) hs ha.idle i
  · refine phaseEdge_induction (P := fun u => u.blk.lines.Strobed u.blk.ph) (fun _ => hs)
      (fun _ _ => ⟨rfl, rfl, rfl, hs.ad⟩) (fun hp => hs.of_idle (.inr (congrArg Phase.reading hp)) (.inr rfl))
      (fun hp _ => hs.of_idle (.inr (congrArg Phase.reading hp)) (.inr rfl)) (fun _ _ => hs) (fun hread _ => ?_)
    have hlines := cycleEnd_lines (s := s.quiet) hread (hi.cycleLines hread)
    rw [cycleEnd_ph (s := s.quiet) hread, hlines]
    exact Phase.strobed_cycleLines _ _

/-! ## The counter (R43, R89) -/

/-- The edges that phase `p` lasts, 1 for the phases that count nothing. -/
def State.phaseLength (s : State) (p : Phase) : Nat :=
  if p = .rcSettle then s.settleEdges else if p.reading then s.params.phaseCycles else 1

/-- `CNT` is below the length of the phase. -/
def State.Clocked (s : State) : Prop := s.blk.cnt < s.phaseLength s.blk.ph

theorem phaseLength_of_not_reading (s : State) {p : Phase} (h : p.reading = false) : s.phaseLength p = 1 := by
  have hp : p ≠ .rcSettle := by
    rintro rfl
    cases h
  simp [State.phaseLength, hp, h]

theorem phaseLength_of_reading (s : State) {p : Phase} (h : p.reading = true) (hp : p ≠ .rcSettle) :
    s.phaseLength p = s.params.phaseCycles := by
  simp [State.phaseLength, hp, h]

theorem State.Inv.clocked {s : State} (hi : s.Inv) : s.Clocked := by
  unfold State.Clocked
  cases hr : s.blk.ph.reading with
  | false =>
    rw [phaseLength_of_not_reading s hr, hi.cntIdle hr]
    exact Nat.one_pos
  | true =>
    by_cases hp : s.blk.ph = .rcSettle
    · rw [hp]
      exact hi.cntSettle hp
    · rw [phaseLength_of_reading s hr hp]
      exact hi.cntPhase hr hp

theorem clocked_of_perform {s : State} (hP : 1 ≤ s.params.phaseCycles) (hp : s.blk.ph = .idle) (hc : s.blk.cnt = 0)
    (i : Instr) : (s.perform i).Clocked := by
  unfold State.Clocked
  cases i with
  | read a =>
    change s.params.phaseCycles - 1 < s.params.phaseCycles
    omega
  | acquire | release =>
    change s.blk.cnt < 1
    omega
  | drive | float | sample | setsettle =>
    refine (phaseLength_of_not_reading _ (congrArg Phase.reading hp)).symm ▸ ?_
    change s.blk.cnt < 1
    omega

/-- Each transition of `READ` loads `CNT` for the next phase. -/
theorem cycleEnd_clocked {s : State} (hP : 1 ≤ s.params.phaseCycles) (hS : 1 ≤ s.settleEdges)
    (hr : s.blk.ph.reading = true) (hc : s.blk.cnt = 0) : s.cycleEnd.Clocked := by
  revert hr
  unfold State.cycleEnd State.Clocked
  cases hp : s.blk.ph with
  | idle | acqWait | relHold | relWait => exact nofun
  | rcDenOn =>
    intro _
    change s.settleEdges - 1 < s.settleEdges
    omega
  | rcRdOff =>
    intro _
    change s.blk.cnt < 1
    omega
  | _ =>
    intro _
    change s.params.phaseCycles - 1 < s.params.phaseCycles
    omega

theorem clocked_of_step {s t : State} (hi : s.Inv) (hr : s.host.pins.rst = false) (h : step s = .next t) :
    t.Clocked := by
  have hs : s.quiet.Clocked := hi.clocked
  have hzero (hn : s.blk.ph.reading = false) : s.blk.cnt < 1 := (hi.cntIdle hn).symm ▸ Nat.one_pos
  rcases step_kinds h with ⟨hr', -⟩ | ⟨c, -, -, rfl⟩ | ⟨i, ha, -, -, rfl⟩ | ⟨-, -, rfl⟩
  · exact absurd (hr.symm.trans hr') Bool.false_ne_true
  · exact hs
  · exact clocked_of_perform (s := s.quiet) hi.phaseCycles ha.idle (hi.cntIdle (congrArg Phase.reading ha.idle)) i
  · refine phaseEdge_induction (P := State.Clocked) (fun _ => hs) (fun hp _ => hzero (congrArg Phase.reading hp))
      (fun hp => hzero (congrArg Phase.reading hp)) (fun hp _ => hzero (congrArg Phase.reading hp))
      (fun _ _ => (Nat.sub_le _ _).trans_lt hs) (fun hread hc => ?_)
    exact cycleEnd_clocked (s := s.quiet) hi.phaseCycles hi.settleEdges_pos hread hc

/-! ## The read window (R47, R94) -/

theorem readStrobe_of_bufferOn {p : Phase} (h : p.bufferOn = true) : p.readStrobe = true ∧ p.reading = true := by
  revert h
  cases p <;> decide

/-- With the control lines in direction `d` and the strobes those of phase `p`, the read window is open exactly while
`DEN_n` is asserted and the lines are driven (R47, R98). -/
theorem Lines.readWindow_eq {l : Lines} {d : LineDir} {p : Phase} (hd : l.ControlDir d) (hs : l.Strobed p)
    (hio : l.ioM.out = false) (hdt : l.dtR.out = false) :
    l.readWindow = (decide (d = .driven) && p.bufferOn) := by
  simp only [Lines.readWindow, Line.drives, hd.rdN, hd.denN, hd.ioM, hd.dtR, hs.rdN, hs.denN, hio, hdt]
  cases hb : p.bufferOn with
  | false => simp
  | true => cases d <;> simp [(readStrobe_of_bufferOn hb).1]

/-- In a block that holds the bus through a `READ`, the read window is open exactly from T6 to T8 (R98). -/
theorem readWindow_eq_bufferOn {b : Block} (hd : b.lines.ControlDir b.controlDir) (hs : b.lines.Strobed b.ph)
    (hio : b.lines.ioM.out = false) (hdt : b.lines.dtR.out = false)
    (hheld : b.ph.reading = true ∨ b.ph.releasing = true → b.own = .held) :
    b.lines.readWindow = b.ph.bufferOn := by
  rw [Lines.readWindow_eq hd hs hio hdt]
  cases hb : b.ph.bufferOn with
  | false => simp
  | true =>
    have hread := (readStrobe_of_bufferOn hb).2
    have hon := Block.controlOn_iff.mpr ⟨hheld (.inl hread), releasing_of_reading hread⟩
    simp [Block.controlDir_of_on hon]

theorem State.Inv.readWindow {s : State} (hi : s.Inv) : s.blk.lines.readWindow = s.blk.ph.bufferOn :=
  readWindow_eq_bufferOn hi.controlDir hi.strobed hi.ioOut hi.dtOut hi.held

theorem readWindow_of_step {s t : State} (hi : s.Inv) (hr : s.host.pins.rst = false) (h : step s = .next t) :
    t.blk.lines.readWindow = t.blk.ph.bufferOn := by
  obtain ⟨-, hio, hdt⟩ := idleLevels_of_step hi h
  exact readWindow_eq_bufferOn (controlDir_of_step hi h) (strobed_of_step hi hr h) hio hdt
    (arbitrated_of_step hi hr h).held

/-- A `READ` in progress keeps the length of its settle wait. -/
theorem settleEdges_of_step {s t : State} (hr : s.host.pins.rst = false) (hp : s.blk.ph ≠ .idle)
    (h : step s = .next t) : t.settleEdges = s.settleEdges := by
  have hsettle : t.blk.settle = s.blk.settle := by
    by_contra hne
    rcases settleWrittenOnlyBySetsettle s t h hne with hr' | ha
    · exact absurd (hr.symm.trans hr') Bool.false_ne_true
    · exact hp ha.idle
  rw [State.settleEdges, State.settleEdges, hsettle, params_of_step h]

/-- T6 loads `CNT` with the whole settle wait, and only T6 leads into it (R94). -/
theorem cycleEnd_into_settle {s : State} (h : s.cycleEnd.blk.ph = .rcSettle) (hr : s.blk.ph.reading = true) :
    s.blk.ph.bufferOn = false ∧ s.cycleEnd.blk.cnt = s.settleEdges - 1 := by
  revert h hr
  unfold State.cycleEnd
  cases hp : s.blk.ph with
  | rcDenOn => exact fun _ _ => ⟨rfl, rfl⟩
  | idle | acqWait | relHold | relWait => exact fun _ => nofun
  | _ => exact nofun

/-- In the settle wait the window's age and `CNT` add up to the wait (R94). -/
theorem openSettle_of_step {s t : State} (hi : s.Inv) (hr : s.host.pins.rst = false) (h : step s = .next t)
    (hp : t.blk.ph = .rcSettle) : t.board.openFor + t.blk.cnt = t.settleEdges := by
  have hopen : t.board.openFor = s.board.openFor + 1 := by
    rw [openFor_of_step h, readWindow_of_step hi hr h, hp]
    rfl
  have hpos := hi.settleEdges_pos
  cases readEdge_of_step h (congrArg Phase.reading hp) with
  | start a accepted ph opnd lines =>
    rw [ph] at hp
    cases hp
  | count running left cnt ph opnd lines latch =>
    have hsum := hi.openSettle (ph.symm.trans hp)
    rw [settleEdges_of_step hr (ne_idle_of_reading running) h]
    omega
  | advance running done next =>
    have hph : s.quiet.cycleEnd.blk.ph = .rcSettle := by rwa [next] at hp
    obtain ⟨hclosed, hcnt⟩ := cycleEnd_into_settle hph running
    have hzero : s.board.openFor = 0 := hi.openClosed hclosed
    have hload : t.blk.cnt = s.settleEdges - 1 := by rwa [next]
    rw [settleEdges_of_step hr (ne_idle_of_reading running) h]
    omega

/-! ## The response (R42, R114) -/

/-- An error status stays until the next response, and came with data `0x00` and `ERR`. -/
theorem rspReject_of_step {s t : State} (hi : s.Inv) (hr : s.host.pins.rst = false) (h : step s = .next t)
    (hbad : t.blk.rspStatus ≠ .ok) : t.blk.rspData = 0 ∧ t.blk.err = true := by
  cases hv : t.blk.rspValid with
  | true =>
    obtain ⟨ha, hc⟩ := performedCommandsNeverFail s t hr h hv hbad
    obtain ⟨u, hu, -, hblk, -⟩ := rejectionHasNoOtherEffect s _ ha hc
    cases h.symm.trans hu
    rw [hblk]
    exact ⟨rfl, rfl⟩
  | false =>
    obtain ⟨hst, hd⟩ := (responseAtCompletion s t hr h).2 hv
    obtain ⟨hdata, herr⟩ := hi.rspReject (hst ▸ hbad)
    exact ⟨hd.trans hdata, (err_of_step hr h).mpr (.inl herr)⟩

/-- `SETTLE` is never 0: the one command that writes it has another operand (R36). -/
theorem settle_of_step {s t : State} (hi : s.Inv) (hr : s.host.pins.rst = false) (h : step s = .next t) :
    t.blk.settle ≠ 0 := by
  by_cases hs : t.blk.settle = s.blk.settle
  · exact hs ▸ hi.settle
  · rcases settleWrittenOnlyBySetsettle s t h hs with hr' | ha
    · exact absurd (hr.symm.trans hr') Bool.false_ne_true
    · simpa [Instr.wellFormed] using wellFormed_of_decode ha.2

/-! ## Every edge -/

/-- A reset leaves the board in range and the read window closed. -/
theorem inv_of_reset_step {s t : State} (hi : s.Inv) (hr : s.host.pins.rst = true) (h : step s = .next t) : t.Inv := by
  have hmem : t.target.mem.wf = true := mem_of_step h ▸ hi.memory
  rw [step_of_rst hr] at h
  cases h
  exact inv_of_resetBlock rfl ⟨hi.phaseCycles, hi.ticksPerUs⟩ rfl hmem

theorem inv_of_step {s t : State} (hi : s.Inv) (h : step s = .next t) : t.Inv := by
  cases hr : s.host.pins.rst with
  | true => exact inv_of_reset_step hi hr h
  | false =>
    have hparams := params_of_step h
    have harb := arbitrated_of_step hi hr h
    have hdir := controlDir_of_step hi h
    have hstrobe := strobed_of_step hi hr h
    obtain ⟨hwr, hio, hdt⟩ := idleLevels_of_step hi h
    have hcarry := carriesOperand_of_step hi h
    have hclock : t.blk.cnt < t.phaseLength t.blk.ph := clocked_of_step hi hr h
    exact {
      phaseCycles := hparams ▸ hi.phaseCycles
      ticksPerUs := hparams ▸ hi.ticksPerUs
      settle := settle_of_step hi hr h
      requested := harb.requested
      held := harb.held
      hold := harb.hold
      aleDir := hdir.ale
      denDir := hdir.denN
      dtDir := hdir.dtR
      ioDir := hdir.ioM
      rdDir := hdir.rdN
      wrDir := hdir.wrN
      aleOut := hstrobe.ale
      rdOut := hstrobe.rdN
      denOut := hstrobe.denN
      wrOut := hwr
      ioOut := hio
      dtOut := hdt
      adFloating := adFloating_of_step hi h
      adFull := hcarry.full
      adHigh := hcarry.high
      adIdle := hstrobe.ad
      adOut := hcarry.out
      latch := hcarry.latch
      cntIdle := fun hn => Nat.lt_one_iff.mp (phaseLength_of_not_reading t hn ▸ hclock)
      cntPhase := fun hread hp => phaseLength_of_reading t hread hp ▸ hclock
      cntSettle := fun hp => by rwa [hp] at hclock
      openClosed := fun hb => by simp [openFor_of_step h, readWindow_of_step hi hr h, hb]
      openSettle := openSettle_of_step hi hr h
      rspIdle := fun hv => ((responseAtCompletion s t hr h).1.mp hv).2
      rspReject := rspReject_of_step hi hr h
      memory := mem_of_step h ▸ hi.memory }

/-- Settles O14: a reset leaves the block of R48, and every other edge keeps each group of clauses. -/
theorem edgeKeepsInvariant : Obligations.EdgeKeepsInvariant := fun _ _ => inv_of_step

/-- The invariant holds along every run. -/
theorem inv_of_run {s t : State} {n : Nat} (hi : s.Inv) (h : run n s = .next t) : t.Inv := by
  induction n generalizing s with
  | zero => cases h; exact hi
  | succ n ih =>
    obtain ⟨u, hs, hu⟩ := exists_step_of_run_succ h
    exact ih (inv_of_step hi hs) hu

end Sys2Proof.Machine
end

section
/-! PROOFS. Single edges of the arbiter and of `READ` (R75, R78, R89), the latch (R45), and the sample (R31, R54, R86, R95,
R96): what stands on the data lines, and what `READ` answers. -/

namespace Sys2Proof.Machine

/-! ## Single edges (R75, R78, R89) -/

/-- Settles O30: with the acknowledgement the grant, without it nothing. -/
theorem acquireWaitEdge : Obligations.AcquireWaitEdge := by
  intro s hp hr
  have hstep := step_of_busy hr (by simp [hp])
  rw [phaseEdge_of_acqWait (s := s.quiet) hp] at hstep
  refine ⟨_, hstep, params_of_step hstep, fun _ => by rw [mem_of_step hstep], fun h2 => ?_, fun h2 => ?_⟩
  · rw [acqWaitEdge_of_ack (s := s.quiet) h2]
    rfl
  · rw [acqWaitEdge_of_noAck (s := s.quiet) h2]
    rfl

/-- Settles O34: `REL_HOLD` lasts one edge, and `REL_WAIT` as long as the acknowledgement. -/
theorem releaseWaitEdges : Obligations.ReleaseWaitEdges := by
  intro s hr
  refine ⟨fun hp => ?_, fun hp h2 => step_of_waiting (v := true) hr hp h2, fun hp h2 => ?_⟩ <;>
    refine ⟨_, step_of_busy hr (by simp [hp]), ?_⟩
  · rw [phaseEdge_of_relHold (s := s.quiet) hp]
    rfl
  · rw [phaseEdge_of_relWait (s := s.quiet) hp, relWaitEdge_of_noAck (s := s.quiet) h2]
    rfl

/-- Settles O46: a phase of `READ` counts, or performs its own transition. -/
theorem readPhaseEdges : Obligations.ReadPhaseEdges := by
  intro s hr hread
  refine ⟨_, step_of_reading hr hread, fun hc => ?_, fun hc => ?_⟩
  · rw [countdown_of_pos (s := s.quiet) hc]
    rfl
  · have hend {p : Phase} (hp : s.blk.ph = p) : s.quiet.blk.ph = p := hp
    rw [countdown_of_zero (s := s.quiet) hc]
    refine ⟨?_, ?_, ?_, ?_, ?_, ?_, ?_, ?_⟩ <;>
      · intro hp
        rw [State.cycleEnd, hend hp]
        rfl

/-! ## The latch (R45) -/

theorem Line.drives_iff {l : Line} {v : Level} : l.drives v = true ↔ l = ⟨.driven, v⟩ := by
  obtain ⟨d, o⟩ := l
  simp [Line.drives]

/-- `ALE` falls, both levels driven, exactly at T3 (R91, R98). -/
theorem ale_falls_iff {s t : State} (hi : s.Inv) (h : step s = .next t) :
    s.blk.lines.ale = ⟨.driven, true⟩ ∧ t.blk.lines.ale = ⟨.driven, false⟩ ↔
      s.host.pins.rst = false ∧ s.blk.ph = .rcAleLo ∧ s.blk.cnt = 0 := by
  constructor
  · rintro ⟨hs, ht⟩
    have hp : s.blk.ph = .rcAleLo := by simpa [hs] using hi.aleOut
    have hr : s.host.pins.rst = false := by
      by_contra hr
      rw [step_of_rst (by simpa using hr)] at h
      cases h
      cases ht
    refine ⟨hr, hp, by_contra fun hc => ?_⟩
    rw [step_of_reading hr (congrArg Phase.reading hp), countdown_of_pos (s := s.quiet) hc] at h
    cases h
    cases hs.symm.trans ht
  · rintro ⟨hr, hp, hc⟩
    have hs := hi.ale_of_rcAleLo hp
    rw [step_of_reading hr (congrArg Phase.reading hp), countdown_of_zero (s := s.quiet) hc, State.cycleEnd,
      show s.quiet.blk.ph = .rcAleLo from hp] at h
    cases h
    exact ⟨hs, congrArg (fun l : Line => Line.mk l.dir false) hs⟩

/-- Settles O47: the latch captures where a driven `ALE` falls, and that is at T3, with all 20 lines driven. -/
theorem latchCapturesAtStrobeFall : Obligations.LatchCapturesAtStrobeFall := by
  intro s t hi h
  have hfall : (s.blk.lines.ale.drives true && t.blk.lines.ale.drives false) = true ↔
      s.host.pins.rst = false ∧ s.blk.ph = .rcAleLo ∧ s.blk.cnt = 0 := by
    rw [Bool.and_eq_true, Line.drives_iff, Line.drives_iff]
    exact ale_falls_iff hi h
  have hlatch := latch_of_step h
  refine ⟨fun hT3 => ?_, fun hno => ?_⟩
  · have hfull : s.blk.lines.ad.driven = 0xFFFFF := hi.adFull (congrArg Phase.fullAddress hT3.2.1)
    exact ⟨hfull, by rw [hlatch, if_pos (hfall.mpr hT3), adPins_of_full hfull]⟩
  · rw [hlatch, if_neg (hfall.not.mpr hno)]

/-! ## What a sample reads (R31, R54) -/

/-- Bit by bit: the device's byte on the lines that float, the free value elsewhere. -/
theorem samplePins_getLsbD (s : State) {i : Nat} (hi : i < 8) :
    s.samplePins.getLsbD i =
      if s.blk.lines.ad.driven.getLsbD i then (Config.freeByte s.board.edge).getLsbD i
      else
        match s.deviceByte with
        | some b => b.getLsbD i
        | none => (Config.freeByte s.board.edge).getLsbD i := by
  unfold State.samplePins
  cases s.deviceByte with
  | none => simp
  | some b => cases hd : s.blk.lines.ad.driven.getLsbD i <;> simp [hi, hd]

theorem samplePins_of_noDevice {s : State} (h : s.deviceByte = none) :
    s.samplePins = Config.freeByte s.board.edge := by
  rw [State.samplePins, h]

/-- Settles O43: the bits of a sample, and the bits of a driven address. -/
theorem sampleAndAddressBitOrder : Obligations.SampleAndAddressBitOrder := by
  refine ⟨fun s i hi => samplePins_getLsbD s hi, fun s a i ho => ?_⟩
  exact ⟨_, drivePutsAddressOnLines s a ho, Lines.dir_ad_of_full rfl i, rfl⟩

theorem deviceByte_of_closed {s : State} (h : s.blk.lines.readWindow = false) : s.deviceByte = none := by
  simp [State.deviceByte, h]

/-- Settles O42: outside a `READ` the read window is closed. -/
theorem standaloneSampleIsAnyValue : Obligations.StandaloneSampleIsAnyValue := by
  intro s hi hp ho
  have hclosed : s.blk.lines.readWindow = false := hi.readWindow.trans (congrArg Phase.bufferOn hp)
  have hfree := samplePins_of_noDevice (deviceByte_of_closed hclosed)
  exact ⟨_, sampleReadsDataLines s ho, hfree, hfree⟩

end Sys2Proof.Machine
end

section
/-! PROOFS. What `READ` answers (R95, R96): the state at T7, the device that answers there, and the target that keeps its grant
up to it. -/

namespace Sys2Proof.Machine

/-! ## Inductions over a run -/

theorem exists_run (n : Nat) (s : State) : ∃ t, run n s = .next t := by
  induction n generalizing s with
  | zero => exact ⟨s, rfl⟩
  | succ n ih =>
    obtain ⟨u, hu⟩ := everyEdgeAnswers s
    obtain ⟨t, ht⟩ := ih u
    exact ⟨t, (run_succ_of_step hu).trans ht⟩

/-- The last edge of a run. -/
theorem exists_last_step_of_run {s t : State} {n : Nat} (h : run (n + 1) s = .next t) :
    ∃ u, run n s = .next u ∧ step u = .next t := by
  obtain ⟨u, hu⟩ := exists_run n s
  obtain ⟨v, hv⟩ := everyEdgeAnswers u
  cases h.symm.trans (run_succ_of_run hu hv)
  exact ⟨u, hu, hv⟩

/-- What holds at the start of a run and is kept by each of its edges holds at its end. -/
theorem run_induction {P : State → Prop} {s t : State} {n : Nat} (h : run n s = .next t) (h0 : P s)
    (hstep : ∀ j u v, j < n → run j s = .next u → run (j + 1) s = .next v → step u = .next v → P u → P v) : P t := by
  induction n generalizing t with
  | zero => cases h; exact h0
  | succ n ih =>
    obtain ⟨u, hu, ht⟩ := exists_last_step_of_run h
    have hP : P u := ih hu fun j x y hj => hstep j x y (Nat.lt_succ_of_lt hj)
    exact hstep n u t n.lt_succ_self hu h ht hP

theorem params_of_run {s t : State} {n : Nat} (h : run n s = .next t) : t.params = s.params :=
  run_induction (P := fun u => u.params = s.params) h rfl fun _ _ _ _ _ _ hs hu => (params_of_step hs).trans hu

theorem mem_of_run {s t : State} {n : Nat} (h : run n s = .next t) : t.target.mem = s.target.mem :=
  run_induction (P := fun u => u.target.mem = s.target.mem) h rfl fun _ _ _ _ _ _ hs hu => (mem_of_step hs).trans hu

/-- No edge changes an access time (R96). -/
theorem accessTime_of_run {s t : State} {n : Nat} (h : run n s = .next t) (a : Nat) :
    t.target.accessTime a = s.target.accessTime a :=
  run_induction (P := fun u => u.target.accessTime a = s.target.accessTime a) h rfl fun _ u v _ _ _ hs hu => by
    rw [(target_of_step hs).1, answer_accessTime, hu]

/-! ## The sample at T7 (R47, R95) -/

section
variable {s : State} (hi : s.Inv) (hp : s.blk.ph = .rcSettle) (hc : s.blk.cnt = 0)
include hi hp hc

/-- At T7 the read window has been open for the settle wait, and the latch selects the operand. -/
theorem deviceByte_at_T7 : s.deviceByte =
    if decide (s.target.accessTime s.blk.opnd.toNat ≤ s.settleEdges) && s.target.hlda then
      s.target.mem.read s.blk.opnd.toNat
    else none := by
  have hwindow : s.blk.lines.readWindow = true := hi.readWindow.trans (congrArg Phase.bufferOn hp)
  have hopen : s.board.openFor = s.settleEdges := by simpa [hc] using hi.openSettle hp
  have hlatch : s.board.latch = s.blk.opnd := hi.latch (congrArg Phase.latched hp)
  rw [State.deviceByte, hwindow, hopen, hlatch]
  simp

/-- The device's byte, where one responds in time to a target that keeps its grant (R96). -/
theorem samplePins_of_device {b : Byte} (hb : s.Answers s.blk.opnd b) (hok : s.SettleOk s.blk.opnd)
    (hpin : s.target.hlda = true) : s.samplePins = b := by
  have hlow : s.blk.lines.ad.driven.extractLsb' 0 8 = 0#8 := by
    rw [hi.adHigh (congrArg Phase.highAddress hp)]
    decide
  have hdevice : s.deviceByte = some b := by
    rw [deviceByte_at_T7 hi hp hc, hpin, decide_eq_true (p := _ ≤ _) hok]
    exact hb
  rw [State.samplePins, hdevice]
  dsimp only
  rw [hlow, BitVec.not_zero, BitVec.and_allOnes, BitVec.and_zero, BitVec.or_zero]

/-- Any value, where no device responds or the wait is too short (R50, R96). -/
theorem samplePins_of_noAnswer (h : s.target.mem.read s.blk.opnd.toNat = none ∨ ¬ s.SettleOk s.blk.opnd) :
    s.samplePins = Config.freeByte s.board.edge := by
  refine samplePins_of_noDevice ?_
  rw [deviceByte_at_T7 hi hp hc]
  rcases h with hnone | hshort
  · rw [hnone, ite_self]
  · rw [decide_eq_false (p := _ ≤ _) hshort, Bool.false_and]
    rfl

end

/-! ## The edge of T7 (R88) -/

/-- The last edge of the settle wait is in no other phase of `READ` (R88). -/
theorem eq_rcSettle_of_clock {s : State} {p : Phase} {c : Nat} (hS : 1 ≤ s.settleEdges) (hp : p.reading = true)
    (hc : c < s.phaseLength p) (hclock : s.phaseEnd .rcSettle + c = s.phaseEnd p) : p = .rcSettle ∧ c = 0 := by
  cases p with
  | rcSettle => exact ⟨rfl, Nat.add_eq_left.mp hclock⟩
  | idle | acqWait | relHold | relWait => cases hp
  | _ =>
    simp only [State.phaseEnd] at hclock
    replace hc : c < s.params.phaseCycles := hc
    omega

theorem State.ReadFrame.phaseLength {s t : State} (h : s.ReadFrame t) : t.phaseLength = s.phaseLength := by
  funext p
  rw [State.phaseLength, State.phaseLength, h.settleEdges, h.params]

/-- A `READ` reaches T7 at its edge of R88. -/
theorem exists_readAt_T7 {s : State} {a : Addr} (hi : s.Inv) (ha : s.Accepts (.read a)) (ho : s.blk.own = .held)
    (hr : s.NoReset s.readEdges) :
    ∃ v, s.ReadAt a (s.phaseEnd .rcSettle) v ∧ v.Inv ∧ v.blk.ph = .rcSettle ∧ v.blk.cnt = 0 := by
  have hS := hi.settleEdges_pos
  have hle : s.phaseEnd .rcSettle ≤ s.readEdges := phaseEnd_le_readEdges s rfl
  obtain ⟨v, hv⟩ := exists_readAt hi ha ho hr (hS.trans (Nat.le_add_left _ _)) (Nat.le_succ_of_le hle)
  have hvi := inv_of_run hi hv.reached
  have hcnt : v.blk.cnt < v.phaseLength v.blk.ph := hvi.clocked
  obtain ⟨hp, hc⟩ := eq_rcSettle_of_clock hS (hv.reading_of_le hle) (hv.frame.phaseLength ▸ hcnt) hv.clock
  exact ⟨v, hv, hvi, hp, hc⟩

/-! ## The grant (R46) -/

/-- While `HOLD` stands, a target that plans to keep its grant keeps it (R46, D21). -/
theorem keepsGrant_of_step {s t : State} (hk : s.KeepsGrant) (h : step s = .next t) (hh : t.blk.holdO = true) :
    t.KeepsGrant := by
  obtain ⟨hpin, hplan⟩ := hk
  rw [State.KeepsGrant, (target_of_step h).1, hh]
  unfold Target.answer
  split
  case h_1 l rest he =>
    rw [he] at hplan
    exact ⟨hplan l List.mem_cons_self, fun l' hl' => hplan l' (List.mem_cons_of_mem l hl')⟩
  case h_2 he => simp [hpin, he]

/-- The grant stays through a `READ`. -/
theorem keepsGrant_of_readAt {s u : State} {a : Addr} {n : Nat} (hi : s.Inv) (ha : s.Accepts (.read a))
    (ho : s.blk.own = .held) (hr : s.NoReset s.readEdges) (hk : s.KeepsGrant) (hn : n ≤ s.readEdges + 1)
    (hu : run n s = .next u) : u.KeepsGrant := by
  have hhold : s.blk.holdO = true := by simp [hi.hold, ho, ha.idle]
  refine run_induction (P := State.KeepsGrant) hu hk fun j x y hj _ hy hstep hx => keepsGrant_of_step hx hstep ?_
  obtain ⟨y', hy'⟩ := exists_readAt hi ha ho hr (Nat.succ_pos j) (Nat.le_trans hj hn)
  cases hy.symm.trans hy'.reached
  exact hy'.frame.holdO.trans hhold

/-! ## What `READ` answers (R96) -/

/-- The sample at T7 of `READ a`: the device's byte, or any value. -/
theorem samplePins_of_readAt {s v : State} {a : Addr} {n : Nat} (hv : s.ReadAt a n v) (hi : v.Inv)
    (hp : v.blk.ph = .rcSettle) (hc : v.blk.cnt = 0) :
    (∀ b, s.Answers a b → s.SettleOk a → v.target.hlda = true → v.samplePins = b) ∧
    (s.target.mem.read a.toNat = none ∨ ¬ s.SettleOk a → v.samplePins = Config.freeByte v.board.edge) := by
  have hok : v.SettleOk v.blk.opnd ↔ s.SettleOk a := by
    rw [State.SettleOk, State.SettleOk, hv.opnd, accessTime_of_run hv.reached, hv.frame.settleEdges]
  refine ⟨fun b hb hs hpin => ?_, fun h => ?_⟩
  · refine samplePins_of_device hi hp hc ?_ (hok.mpr hs) hpin
    rw [State.Answers, hv.frame.mem, hv.opnd]
    exact hb
  · refine samplePins_of_noAnswer hi hp hc ?_
    rwa [hok, hv.frame.mem, hv.opnd]

/-- Settles O52: the response is the sample of T7, where the read window has been open for the whole settle wait. -/
theorem readAnswersTheTarget : Obligations.ReadAnswersTheTarget := by
  intro s a hi ha ho hr
  obtain ⟨t, ht, hidle⟩ := exists_readAt_end hi ha ho hr
  obtain ⟨v, hv, hvi, hp, hc⟩ := exists_readAt_T7 hi ha ho hr
  have hle : s.phaseEnd .rcSettle ≤ s.readEdges + 1 := (phaseEnd_le_readEdges s rfl).trans (Nat.le_succ _)
  obtain ⟨hdevice, hfree⟩ := samplePins_of_readAt hv hvi hp hc
  have hdata : t.blk.data = v.samplePins := by
    obtain ⟨v', hv', hd⟩ := ht.sample (hidle ▸ rfl)
    cases hv'.symm.trans hv.reached
    exact hd
  refine ⟨t, ht.reached, (ht.answer hidle).2.2, fun b hb hok hk => ?_, fun h => ?_⟩ <;> rw [hdata]
  · exact hdevice b hb hok (keepsGrant_of_readAt hi ha ho hr hk hle hv.reached).1
  · rw [hfree h, hv.edge, State.phaseEnd, Nat.add_assoc]

end Sys2Proof.Machine
end

section
/-! PROOFS. `ACQUIRE` and `RELEASE` with a target that answers each change of `HOLD` late (R138): a clock of the edges left until
the answer has passed the synchroniser (R30), and the run to its end. -/

namespace Sys2Proof.Machine

/-! ## The answer on its way to `Sync(HLDA)` (R30, R46) -/

/-- The block waits at level `v` for the answer of a target that answers `k` edges late, and the answer is `r` edges away from
the second flip-flop: it stands at the pin for the last two of them. -/
structure Target.AnswersIn (v : Level) (k r : Nat) (x : Target) : Prop where
  plan : x.plan = []
  delay : x.delay = some k
  answer : (3 ≤ r ∧ x.hlda = v ∧ x.owed + r = k + 3) ∨ (r ≤ 2 ∧ x.hlda = !v ∧ x.owed = 0)

/-- A target at rest at level `v` owes the whole answer to the other level of `HOLD`. -/
theorem Target.answersIn_of_rest {v : Level} {k : Nat} {x : Target} (hl : x.hlda = v) (hp : x.plan = [])
    (hd : x.delay = some k) (ho : x.owed = 0) : x.AnswersIn v k (k + 3) :=
  ⟨hp, hd, .inl ⟨Nat.le_add_left 3 k, hl, by omega⟩⟩

/-- A target that has answered is at rest. -/
theorem Target.answersIn_zero_iff {v : Level} {k : Nat} {x : Target} :
    x.AnswersIn v k 0 ↔ x.plan = [] ∧ x.delay = some k ∧ x.hlda = (!v) ∧ x.owed = 0 := by
  constructor
  · rintro ⟨hp, hd, ⟨h3, -⟩ | ⟨-, hl, ho⟩⟩
    · cases h3
    · exact ⟨hp, hd, hl, ho⟩
  · rintro ⟨hp, hd, hl, ho⟩
    exact ⟨hp, hd, .inr ⟨Nat.zero_le 2, hl, ho⟩⟩

/-- Without planned levels a target at the level of `HOLD` owes nothing. -/
theorem answer_of_agree {x : Target} (hp : x.plan = []) : x.answer x.hlda = { x with owed := 0 } := by
  simp [Target.answer, hp]

/-- At the other level it answers when its delay is over, and counts until then. -/
theorem answer_of_differ {x : Target} {v : Level} {k : Nat} (hp : x.plan = []) (hd : x.delay = some k)
    (hl : x.hlda = v) :
    x.answer (!v) = if k ≤ x.owed then { x with hlda := !v, owed := 0 } else { x with owed := x.owed + 1 } := by
  subst hl
  have hne : ¬((x.hlda == Config.hldaActive) = ((!x.hlda) == Config.holdActive)) := by cases x.hlda <;> decide
  simp only [Target.answer, hp, hd, if_neg hne]

/-- Each edge at which `HOLD` is at the level to be answered brings the answer one edge nearer. -/
theorem Target.AnswersIn.answer_succ {v : Level} {k r : Nat} {x : Target} (h : x.AnswersIn v k (r + 1)) :
    (x.answer (!v)).AnswersIn v k r := by
  obtain ⟨hp, hd, ⟨h3, hl, ho⟩ | ⟨h2, hl, ho⟩⟩ := h
  · rw [answer_of_differ hp hd hl]
    split
    case isTrue hk => exact ⟨hp, hd, .inr ⟨by omega, rfl, rfl⟩⟩
    case isFalse hk => exact ⟨hp, hd, .inl ⟨by omega, hl, by simp only; omega⟩⟩
  · rw [← hl, answer_of_agree hp]
    exact ⟨hp, hd, .inr ⟨by omega, hl, rfl⟩⟩

/-- Once it has come it stays. -/
theorem Target.AnswersIn.answer_zero {v : Level} {k : Nat} {x : Target} (h : x.AnswersIn v k 0) :
    (x.answer (!v)).AnswersIn v k 0 := by
  obtain ⟨hp, hd, hl, ho⟩ := Target.answersIn_zero_iff.mp h
  rw [← hl, answer_of_agree hp]
  exact Target.answersIn_zero_iff.mpr ⟨hp, hd, hl, rfl⟩

/-- The level at the pin. -/
theorem Target.AnswersIn.hlda_eq {v : Level} {k r : Nat} {x : Target} (h : x.AnswersIn v k r) :
    x.hlda = if r ≤ 2 then !v else v := by
  obtain ⟨-, -, ⟨h3, hl, -⟩ | ⟨h2, hl, -⟩⟩ := h
  · rw [if_neg (by omega), hl]
  · rw [if_pos h2, hl]

/-! ## The wait of the block -/

/-- The block waits at level `v` for an answer that is `r` edges away from the second flip-flop. -/
structure State.WaitsFor (v : Level) (k r : Nat) (s : State) : Prop where
  ph : s.blk.ph = Phase.waitingAt v
  hold : s.blk.holdO = !v
  silent : s.blk.rspValid = false
  s1 : s.blk.s1 = if r ≤ 1 then !v else v
  s2 : s.blk.s2 = if r = 0 then !v else v
  target : s.target.AnswersIn v k r

/-- The same block but for the synchroniser. -/
def Block.UpToSync (b c : Block) : Prop := c = { b with s1 := c.s1, s2 := c.s2 }

theorem Block.UpToSync.trans {b c d : Block} (h : b.UpToSync c) (k : c.UpToSync d) : b.UpToSync d := by
  unfold Block.UpToSync at *
  rw [k, h]

theorem Block.UpToSync.own {b c : Block} (h : b.UpToSync c) : c.own = b.own := by
  rw [h]

theorem Block.UpToSync.settle {b c : Block} (h : b.UpToSync c) : c.settle = b.settle := by
  rw [h]

theorem Block.UpToSync.lines {b c : Block} (h : b.UpToSync c) : c.lines = b.lines := by
  rw [h]

/-- An edge of the wait, before the answer is through. -/
theorem waitsFor_of_step {v : Level} {k r : Nat} {s : State} (hw : s.WaitsFor v k (r + 1))
    (hr : s.host.pins.rst = false) : ∃ t, step s = .next t ∧ t.WaitsFor v k r ∧ s.blk.UpToSync t.blk := by
  obtain ⟨hph, hhold, hsilent, h1, h2, htarget⟩ := hw
  obtain ⟨t, hstep, hblk⟩ := step_of_waiting hr hph (h2.trans (if_neg r.succ_ne_zero))
  have htt := (target_of_step hstep).1
  rw [hblk, show s.idleBlock.holdO = !v from hhold] at htt
  refine ⟨t, hstep, ⟨?_, ?_, ?_, ?_, ?_, htt ▸ htarget.answer_succ⟩, ?_⟩
  · rw [hblk]; exact hph
  · rw [hblk]; exact hhold
  · rw [hblk]; rfl
  · rw [hblk]; simpa [State.idleBlock] using htarget.hlda_eq
  · rw [hblk]; simpa [State.idleBlock] using h1
  · rw [Block.UpToSync, hblk, State.idleBlock, hsilent]

/-- The wait, edge by edge, until the answer is through. -/
theorem waitsFor_of_run {v : Level} {k r j : Nat} {s : State} (hw : s.WaitsFor v k r) (hr : s.NoReset r)
    (hj : j ≤ r) : ∃ u, run j s = .next u ∧ u.WaitsFor v k (r - j) ∧ s.blk.UpToSync u.blk := by
  induction j with
  | zero => exact ⟨s, rfl, hw, rfl⟩
  | succ j ih =>
    obtain ⟨u, hu, huw, hsame⟩ := ih (Nat.le_of_succ_le hj)
    have hrst : u.host.pins.rst = false :=
      (noReset_of_run (n := r - j) (by rwa [Nat.add_sub_cancel' (Nat.le_of_succ_le hj)]) hu).1
    rw [show r - j = r - (j + 1) + 1 by omega] at huw
    obtain ⟨t, hstep, htw, hsame'⟩ := waitsFor_of_step huw hrst
    exact ⟨t, run_succ_of_run hu hstep, htw, hsame.trans hsame'⟩

/-! ## A held bus with a target at rest -/

/-- The bus is held, the acknowledgement has settled, and the target answers `k` edges late. -/
structure State.Granted (k : Nat) (s : State) : Prop where
  own : s.blk.own = .held
  hold : s.blk.holdO = true
  s1 : s.blk.s1 = true
  s2 : s.blk.s2 = true
  target : s.target.AnswersIn false k 0

theorem State.Granted.hlda {k : Nat} {s : State} (h : s.Granted k) : s.target.hlda = true := h.target.hlda_eq

theorem State.Granted.keepsGrant {k : Nat} {s : State} (h : s.Granted k) : s.KeepsGrant :=
  ⟨h.hlda, by simp [h.target.plan]⟩

/-- An edge that gives up neither the bus nor `HOLD` keeps the grant settled. -/
theorem granted_of_step {k : Nat} {s t : State} (hg : s.Granted k) (hr : s.host.pins.rst = false)
    (h : step s = .next t) (ho : t.blk.own = .held) (hh : t.blk.holdO = true) : t.Granted k := by
  obtain ⟨h1, h2⟩ := sync_of_step hr h
  refine ⟨ho, hh, h1.trans hg.hlda, h2.trans hg.s1, ?_⟩
  rw [(target_of_step h).1, hh]
  exact hg.target.answer_zero

/-! ## `ACQUIRE` -/

/-- The accepting edge: `HOLD` rises, and the target has seen it. -/
theorem waitsFor_of_acquire {k : Nat} {s : State} (ha : s.Accepts .acquire) (ho : s.blk.own = .released)
    (h1 : s.blk.s1 = false) (htarget : s.target.AnswersIn false k (k + 3)) :
    ∃ t, step s = .next t ∧ t.WaitsFor false k (k + 2) ∧ t.blk.settle = s.blk.settle := by
  have hok : stateOk .acquire s.quiet.blk.own = true := by simp [stateOk, ho]
  refine ⟨_, step_of_accepts ha.1 (dispatch_of_stateOk ha.2 hok), ⟨rfl, rfl, rfl, ?_, ?_, htarget.answer_succ⟩, rfl⟩
  · exact htarget.hlda_eq.trans (by simp)
  · exact h1.trans (by simp)

/-- The run of an `ACQUIRE`: it waits until the answer is through, and then holds the bus (R75, R138). -/
theorem acquire_run {k : Nat} {s : State} (ha : s.Accepts .acquire) (ho : s.blk.own = .released)
    (h1 : s.blk.s1 = false) (htarget : s.target.AnswersIn false k (k + 3)) (hr : s.NoReset (k + 3)) :
    (∀ j, 1 ≤ j → j ≤ k + 3 → ∃ u, run j s = .next u ∧ u.blk.ph = .acqWait ∧ u.blk.rspValid = false) ∧
    ∃ t, run (k + 4) s = .next t ∧ t.Granted k ∧ t.blk.ph = .idle ∧ t.blk.settle = s.blk.settle ∧
      t.blk.rspValid = true ∧ t.blk.rspStatus = .ok ∧ t.blk.rspData = 0 := by
  obtain ⟨w, hw, hwait, hsettle⟩ := waitsFor_of_acquire ha ho h1 htarget
  have hwr : w.NoReset (k + 2) := noReset_of_step hr hw
  refine ⟨fun j h1j hj => ?_, ?_⟩
  · obtain ⟨i, rfl⟩ := Nat.exists_eq_add_of_le' h1j
    obtain ⟨u, hu, huw, -⟩ := waitsFor_of_run hwait hwr (Nat.le_of_succ_le_succ hj)
    exact ⟨u, (run_succ_of_step hw).trans hu, huw.ph, huw.silent⟩
  · obtain ⟨u, hu, huw, hsame⟩ := waitsFor_of_run hwait hwr le_rfl
    rw [Nat.sub_self] at huw
    have hrun : run (k + 3) s = .next u := (run_succ_of_step hw).trans hu
    have hur : u.host.pins.rst = false := (noReset_of_run (n := 0) hr hrun).1
    obtain ⟨t, ht, -, -, hgrant, -⟩ := acquireWaitEdge u huw.ph hur
    have hblk := hgrant huw.s2
    have htarget' := (target_of_step ht).1
    refine ⟨t, run_succ_of_run hrun ht, ⟨by rw [hblk], ?_, ?_, ?_, ?_⟩, by rw [hblk], ?_, by rw [hblk], by rw [hblk],
      by rw [hblk]⟩
    · rw [hblk]; exact huw.hold
    · rw [hblk]; exact huw.target.hlda_eq
    · rw [hblk]; exact huw.s1
    · rw [htarget', hblk, show u.idleBlock.holdO = !false from huw.hold]
      exact huw.target.answer_zero
    · rw [hblk]; exact hsame.settle.trans hsettle

/-- Settles O32, from the run of an `ACQUIRE`. -/
theorem acquireCompletesAfterAnswer : Obligations.AcquireCompletesAfterAnswer := by
  intro k s ha ho h1 _ hpin hplan hdelay howed hr
  obtain ⟨hwait, t, ht, hg, hp, -, hv, hst, hd⟩ :=
    acquire_run ha ho h1 (Target.answersIn_of_rest hpin hplan hdelay howed) hr
  exact ⟨hwait, t, ht, hg.own, hp, hg.hold, hv, hst, hd⟩

/-! ## `RELEASE` -/

/-- The accepting edge and the one after it: the lines float, then `HOLD` falls (R78). -/
theorem waitsFor_of_release {k : Nat} {s : State} (ha : s.Accepts .release) (hg : s.Granted k) (hr : s.NoReset 1) :
    ∃ u w, step s = .next u ∧ u.blk.ph = .relHold ∧ u.blk.own = .held ∧ u.blk.rspValid = false ∧
      step u = .next w ∧ w.WaitsFor true k (k + 2) ∧ w.blk.own = .held ∧ w.blk.lines.allFloating := by
  have hok : stateOk .release s.quiet.blk.own = true := by simp [stateOk, hg.own]
  have hu := step_of_accepts ha.1 (dispatch_of_stateOk ha.2 hok)
  have hug : State.Granted k _ := granted_of_step hg ha.rst hu hg.own hg.hold
  obtain ⟨w, hw, hwblk⟩ := (releaseWaitEdges _ (noReset_of_step hr hu).1).1 rfl
  refine ⟨_, w, hu, rfl, hg.own, rfl, hw, ⟨?_, ?_, ?_, ?_, ?_, ?_⟩, ?_, ?_⟩
  · rw [hwblk]; rfl
  · rw [hwblk]; rfl
  · rw [hwblk]; rfl
  · rw [hwblk]; exact hug.hlda.trans (by simp)
  · rw [hwblk]; exact hug.s1.trans (by simp)
  · obtain ⟨hplan, hdelay, hlda, howed⟩ := Target.answersIn_zero_iff.mp hug.target
    rw [(target_of_step hw).1, hwblk]
    exact (Target.answersIn_of_rest hlda hplan hdelay howed).answer_succ
  · rw [hwblk]; exact hg.own
  · rw [hwblk]; exact Lines.allFloating_of_controlDir (Lines.floatControl_controlDir _) rfl

/-- The run of a `RELEASE`: the bus stays held until the withdrawal is through (R78, R138). -/
theorem release_run {k : Nat} {s : State} (ha : s.Accepts .release) (hg : s.Granted k) (hr : s.NoReset (k + 4)) :
    (∀ j, 1 ≤ j → j ≤ k + 4 →
      ∃ u, run j s = .next u ∧ u.blk.ph ≠ .idle ∧ u.blk.own = .held ∧ u.blk.rspValid = false) ∧
    ∃ t, run (k + 5) s = .next t ∧ t.blk.own = .released ∧ t.blk.ph = .idle ∧ t.blk.holdO = false ∧
      t.blk.lines.allFloating ∧ t.blk.rspValid = true ∧ t.blk.rspStatus = .ok ∧ t.blk.rspData = 0 := by
  have hr1 : s.NoReset 1 := ⟨hr.1, fun p hp => hr.2 p (List.take_subset_take_left _ (by omega) hp)⟩
  obtain ⟨u, w, hu, hup, huo, huv, hw, hwait, hwo, hwl⟩ := waitsFor_of_release ha hg hr1
  have hrun (n : Nat) : run (n + 2) s = run n w := (run_succ_of_step hu).trans (run_succ_of_step hw)
  have hwr : w.NoReset (k + 2) := noReset_of_step (noReset_of_step hr hu) hw
  refine ⟨fun j h1 hj => ?_, ?_⟩
  · match j, h1 with
    | 1, _ => exact ⟨u, run_succ_of_step hu, by simp [hup], huo, huv⟩
    | i + 2, _ =>
      obtain ⟨x, hx, hxw, hsame⟩ := waitsFor_of_run hwait hwr (Nat.le_of_add_le_add_right hj)
      exact ⟨x, (hrun i).trans hx, by simp [hxw.ph, Phase.waitingAt], hsame.own.trans hwo, hxw.silent⟩
  · obtain ⟨x, hx, hxw, hsame⟩ := waitsFor_of_run hwait hwr le_rfl
    rw [Nat.sub_self] at hxw
    have hxrun : run (k + 4) s = .next x := (hrun (k + 2)).trans hx
    have hxr : x.host.pins.rst = false := (noReset_of_run (n := 0) hr hxrun).1
    obtain ⟨t, ht, hblk⟩ := (releaseWaitEdges x hxr).2.2 hxw.ph hxw.s2
    refine ⟨t, run_succ_of_run hxrun ht, by rw [hblk], by rw [hblk], ?_, ?_, by rw [hblk], by rw [hblk], by rw [hblk]⟩
    · rw [hblk]; exact hxw.hold
    · rw [hblk]; exact hsame.lines.symm ▸ hwl

/-- Settles O37, from the run of a `RELEASE`. -/
theorem releaseCompletesAfterWithdrawal : Obligations.ReleaseCompletesAfterWithdrawal := by
  intro k s ha ho hh h1 h2 hpin hplan hdelay howed hr
  obtain ⟨hwait, hend⟩ := release_run ha
    ⟨ho, hh, h1, h2, Target.answersIn_zero_iff.mpr ⟨hplan, hdelay, hpin, howed⟩⟩ hr
  refine ⟨fun j h1j hj => ?_, hend⟩
  obtain ⟨u, hu, -, huo, huv⟩ := hwait j h1j hj
  exact ⟨u, hu, huo, huv⟩

end Sys2Proof.Machine
end

section
/-! PROOFS. The capture on the machine (R106, R108): one command after the other, each answered before the next is accepted,
and the artifact made of the answers. -/

namespace Sys2Proof.Machine

/-! ## A host that offers its words one by one (R105) -/

/-- The host presents the word of `i`, with those of `is` to follow. -/
def State.Offers (s : State) (i : Instr) (is : List Instr) : Prop :=
  s.host = ⟨⟨false, true, encode i⟩, [], is.map encode⟩

theorem State.Offers.noReset {s : State} {i : Instr} {is : List Instr} (h : s.Offers i is) (n : Nat) : s.NoReset n := by
  rw [State.NoReset, h]
  simp

theorem State.Offers.accepts {s : State} {i : Instr} {is : List Instr} (h : s.Offers i is)
    (hw : i.wellFormed = true) (hp : s.blk.ph = .idle) : s.Accepts i := by
  refine ⟨accepts_iff.mpr ⟨?_, hp, ?_⟩, ?_⟩ <;> rw [h]
  exact decode_encode hw

/-! ## A command from its acceptance to its answer (R42, R60) -/

/-- The command on the port of `s` answers `OK` at the edge `m` edges after the one that accepts it, in `t`. -/
structure State.Command (s : State) (m : Nat) (t : State) : Prop where
  accepted : s.accepts = true
  reached : run (m + 1) s = .next t
  busy : ∀ j, 1 ≤ j → j ≤ m → ∃ u, run j s = .next u ∧ u.blk.ph ≠ .idle ∧ u.blk.rspValid = false
  idle : t.blk.ph = .idle
  answered : t.blk.rspValid = true ∧ t.blk.rspStatus = .ok

/-- No response comes over edges that leave none. -/
theorem responses_of_silent {m : Nat} {s : State}
    (h : ∀ j, 1 ≤ j → j ≤ m → ∃ u, run j s = .next u ∧ u.blk.rspValid = false) : responses m s = [] := by
  induction m with
  | zero => rfl
  | succ m ih =>
    obtain ⟨u, hu⟩ := exists_run m s
    obtain ⟨t, ht, hv⟩ := h (m + 1) (Nat.succ_pos m) le_rfl
    obtain ⟨u', hu', hstep⟩ := exists_last_step_of_run ht
    cases hu.symm.trans hu'
    rw [responses_add hu, ih fun j h1 hj => h j h1 (Nat.le_succ_of_le hj), responses_succ_of_step hstep, responses_zero,
      State.response, hv]
    rfl

theorem State.Command.silent {s t : State} {m : Nat} (h : s.Command m t) : responses m s = [] :=
  responses_of_silent fun j h1 hj =>
    let ⟨u, hu, _, hv⟩ := h.busy j h1 hj
    ⟨u, hu, hv⟩

/-- A command has one answer, at its last edge. -/
theorem State.Command.responses {s t : State} {m : Nat} (h : s.Command m t) :
    responses (m + 1) s = [⟨.ok, t.blk.rspData⟩] := by
  obtain ⟨u, hu, hstep⟩ := exists_last_step_of_run h.reached
  rw [responses_add hu, h.silent, responses_succ_of_step hstep, responses_zero, State.response, h.answered.1, h.answered.2]
  rfl

/-- The host brings its next word at the accepting edge and holds it while the command runs. -/
theorem State.Command.offers {s t : State} {m : Nat} {i j : Instr} {is : List Instr} (h : s.Command m t)
    (ho : s.Offers i (j :: is)) : t.Offers j is := by
  obtain ⟨u, hu⟩ := everyEdgeAnswers s
  have hfirst : u.Offers j is := by
    rw [State.Offers, host_of_step hu, h.accepted, ho]
    rfl
  obtain ⟨u', hu', ht⟩ := exists_step_of_run_succ h.reached
  cases hu.symm.trans hu'
  refine run_induction (P := fun x => x.Offers j is) ht hfirst fun n x y hn hx _ hstep hxo => ?_
  obtain ⟨x', hx', hbusy, -⟩ := h.busy (n + 1) (Nat.succ_pos n) hn
  cases (run_succ_of_step hu ▸ hx').symm.trans hx
  rw [State.Offers, host_of_step hstep, accepts_of_busy hbusy, hxo]
  rfl

/-! ## The four commands of a capture -/

theorem command_acquire {d : Nat} {s : State} (ha : s.Accepts .acquire) (ho : s.blk.own = .released)
    (h1 : s.blk.s1 = false) (htarget : s.target.AnswersIn false d (d + 3)) (hr : s.NoReset (d + 3)) :
    ∃ t, s.Command (d + 3) t ∧ t.Granted d ∧ t.blk.settle = s.blk.settle ∧ t.blk.rspData = 0 := by
  obtain ⟨hbusy, t, ht, hg, hp, hsettle, hv, hst, hd⟩ := acquire_run ha ho h1 htarget hr
  refine ⟨t, ⟨ha.1, ht, fun j h1j hj => ?_, hp, hv, hst⟩, hg, hsettle, hd⟩
  obtain ⟨u, hu, hup, huv⟩ := hbusy j h1j hj
  exact ⟨u, hu, by simp [hup], huv⟩

theorem command_release {d : Nat} {s : State} (ha : s.Accepts .release) (hg : s.Granted d) (hr : s.NoReset (d + 4)) :
    ∃ t, s.Command (d + 4) t ∧ t.blk.rspData = 0 := by
  obtain ⟨hbusy, t, ht, -, hp, -, -, hv, hst, hd⟩ := release_run ha hg hr
  refine ⟨t, ⟨ha.1, ht, fun j h1j hj => ?_, hp, hv, hst⟩, hd⟩
  obtain ⟨u, hu, hup, -, huv⟩ := hbusy j h1j hj
  exact ⟨u, hu, hup, huv⟩

theorem command_float {d : Nat} {s : State} (ha : s.Accepts .float) (hg : s.Granted d) :
    ∃ t, s.Command 0 t ∧ t.Granted d ∧ t.blk.rspData = 0 := by
  have hok : stateOk .float s.quiet.blk.own = true := by simp [stateOk, hg.own]
  have hstep := step_of_accepts ha.1 (dispatch_of_stateOk ha.2 hok)
  exact ⟨_, ⟨ha.1, run_succ_of_step hstep, fun j h1 hj => absurd (h1.trans hj) (Nat.not_succ_le_zero 0), ha.idle, rfl, rfl⟩,
    granted_of_step hg ha.rst hstep hg.own hg.hold, rfl⟩

/-- The sample that the `READ` of address `k` takes at T7 in the run from `s`, with what the target answers there (R95,
R96). -/
def State.Samples (s : State) (k : Nat) (b : Byte) : Prop :=
  ∃ j u, run j s = .next u ∧ u.blk.ph = .rcSettle ∧ u.blk.cnt = 0 ∧ u.blk.opnd.toNat = k ∧ u.samplePins = b ∧
    ∀ c, s.Answers (BitVec.ofNat 20 k) c → s.SettleOk (BitVec.ofNat 20 k) → u.samplePins = c

/-- A settled grant stays settled through a `READ`. -/
theorem granted_of_readAt {d n : Nat} {s u : State} {a : Addr} (hi : s.Inv) (ha : s.Accepts (.read a))
    (hg : s.Granted d) (hr : s.NoReset s.readEdges) (hn : n ≤ s.readEdges + 1) (hu : run n s = .next u) :
    u.Granted d := by
  refine run_induction (P := State.Granted d) hu hg fun j x y hj hx hy hstep hxg => ?_
  obtain ⟨y', hy'⟩ := exists_readAt hi ha hg.own hr (Nat.succ_pos j) (Nat.le_trans hj hn)
  cases hy.symm.trans hy'.reached
  have hxr : x.host.pins.rst = false :=
    (noReset_of_run (n := s.readEdges - j) (by rwa [Nat.add_sub_cancel' (Nat.le_of_lt_succ (hj.trans_le hn))]) hx).1
  exact granted_of_step hxg hxr hstep (hy'.frame.own.trans hg.own) (hy'.frame.holdO.trans hg.hold)

theorem command_read {d k : Nat} {s : State} (hi : s.Inv) (ha : s.Accepts (.read (BitVec.ofNat 20 k)))
    (hk : k < 2 ^ 20) (hg : s.Granted d) (hr : s.NoReset s.readEdges) :
    ∃ t, s.Command s.readEdges t ∧ t.Granted d ∧ t.blk.settle = s.blk.settle ∧ s.Samples k t.blk.rspData := by
  obtain ⟨hbusy, -⟩ := readCompletesOnTime s _ hi ha hg.own hr
  obtain ⟨t, ht, hp⟩ := exists_readAt_end hi ha hg.own hr
  obtain ⟨v, hv, hvi, hvp, hvc⟩ := exists_readAt_T7 hi ha hg.own hr
  obtain ⟨htv, hst, hd⟩ := ht.answer hp
  have hle : s.phaseEnd .rcSettle ≤ s.readEdges + 1 := (phaseEnd_le_readEdges s rfl).trans (Nat.le_succ _)
  have hpin := (granted_of_readAt hi ha hg hr hle hv.reached).hlda
  obtain ⟨v', hv', hdata⟩ := ht.sample (hp ▸ rfl)
  cases hv'.symm.trans hv.reached
  refine ⟨t, ⟨ha.1, ht.reached, hbusy, hp, htv, hst⟩, granted_of_readAt hi ha hg hr le_rfl ht.reached, ht.frame.settle,
    _, v, hv.reached, hvp, hvc, ?_, (hd.trans hdata).symm, fun c hc hok => ?_⟩
  · rw [hv.opnd, BitVec.toNat_ofNat, Nat.mod_eq_of_lt hk]
  · exact (samplePins_of_readAt hv hvi hvp hvc).1 c hc hok hpin

/-- A sample in the rest of a run is one in the run. -/
theorem State.Samples.of_run {s u : State} {n k : Nat} {b : Byte} (hu : run n s = .next u)
    (hsettle : u.blk.settle = s.blk.settle) (h : u.Samples k b) : s.Samples k b := by
  obtain ⟨j, v, hv, hp, hc, ho, hb, hdevice⟩ := h
  refine ⟨n + j, v, (run_add hu).trans hv, hp, hc, ho, hb, fun c hans hok => hdevice c ?_ ?_⟩
  · rw [State.Answers, mem_of_run hu]
    exact hans
  · rw [State.SettleOk, accessTime_of_run hu, State.settleEdges, hsettle, params_of_run hu]
    exact hok

/-! ## The capture, `READ` by `READ` -/

/-- The answers to a capture: that to `ACQUIRE`, the samples `bs`, and the later ones `is`. -/
def captureRecord (bs : List Byte) (is : List Response) : List Response :=
  ⟨.ok, 0⟩ :: (bs.map (Response.mk .ok) ++ is)

theorem captureRecord_append (bs : List Byte) (is js : List Response) :
    captureRecord bs is ++ js = captureRecord bs (is ++ js) := by
  simp [captureRecord]

theorem captureRecord_sample (bs : List Byte) (b : Byte) (is : List Response) :
    captureRecord bs (⟨.ok, b⟩ :: is) = captureRecord (bs ++ [b]) is := by
  simp [captureRecord]

/-- `u` is the state, in a capture of `n` addresses from `s`, in which `ACQUIRE` and the `READ`s below `k` have answered,
these with the samples `bs`. -/
structure State.CaptureAt (s : State) (d n k : Nat) (bs : List Byte) (u : State) : Prop where
  reached : run (d + 4 + k * (s.readEdges + 1)) s = .next u
  idle : u.blk.ph = .idle
  granted : u.Granted d
  settle : u.blk.settle = s.blk.settle
  offers : ∃ i is, u.Offers i is ∧ i :: is = (readN 0 n).drop k ++ [.float, .release]
  answers : responses (d + 4 + k * (s.readEdges + 1)) s = captureRecord bs []
  length : bs.length = k
  samples : ∀ j < k, ∃ b, bs[j]? = some b ∧ s.Samples j b

/-- The responses of a run and of the command after it. -/
theorem responses_of_command {s u t : State} {n m : Nat} (hu : run n s = .next u) (h : u.Command m t) :
    run (n + (m + 1)) s = .next t ∧ responses (n + (m + 1)) s = responses n s ++ [⟨.ok, t.blk.rspData⟩] :=
  ⟨(run_add hu).trans h.reached, by rw [responses_add hu, h.responses]⟩

/-- After `ACQUIRE` the host presents the first of the words that follow. -/
theorem captureAt_zero {s : State} {d n : Nat} (hp : s.blk.ph = .idle) (ho : s.blk.own = .released)
    (h1 : s.blk.s1 = false) (htarget : s.target.AnswersIn false d (d + 3))
    (hoffers : s.Offers .acquire (readN 0 n ++ [.float, .release])) : ∃ u, s.CaptureAt d n 0 [] u := by
  obtain ⟨t, ht, hg, hsettle, hd⟩ :=
    command_acquire (hoffers.accepts rfl hp) ho h1 htarget (hoffers.noReset _)
  obtain ⟨i, is, hnext⟩ : ∃ i is, readN 0 n ++ [.float, .release] = i :: is := List.exists_cons_of_ne_nil (by simp)
  have hzero : d + 4 + 0 * (s.readEdges + 1) = d + 3 + 1 := by omega
  rw [hnext] at hoffers
  exact ⟨t, {
    reached := by rw [hzero]; exact ht.reached
    idle := ht.idle
    granted := hg
    settle := hsettle
    offers := ⟨i, is, ht.offers hoffers, hnext.symm⟩
    answers := by rw [hzero, ht.responses, hd]; rfl
    length := rfl
    samples := nofun }⟩

/-- The words from `READ k` on. -/
theorem readN_drop {n k : Nat} (hk : k < n) (is : List Instr) :
    (readN 0 n).drop k ++ is = .read (BitVec.ofNat 20 k) :: ((readN 0 n).drop (k + 1) ++ is) := by
  have hlen : k < (readN 0 n).length := by rwa [length_readN]
  have hget : (readN 0 n)[k] = .read (BitVec.ofNat 20 k) := by
    have h := readN_getElem? (a := 0) hk
    rwa [List.getElem?_eq_getElem hlen, Option.some.injEq, Nat.zero_add] at h
  rw [List.drop_eq_getElem_cons hlen, hget, List.cons_append]

/-- One `READ` further. -/
theorem captureAt_succ {s u : State} {d n k : Nat} {bs : List Byte} (hi : s.Inv) (hu : s.CaptureAt d n k bs u)
    (hk : k < n) (hn : n ≤ 2 ^ 20) : ∃ b t, s.CaptureAt d n (k + 1) (bs ++ [b]) t := by
  obtain ⟨i, is, hoffers, hwords⟩ := hu.offers
  rw [readN_drop hk] at hwords
  obtain ⟨rfl, rfl⟩ := List.cons.inj hwords
  have hui := inv_of_run hi hu.reached
  have hedges : u.readEdges = s.readEdges := by
    rw [State.readEdges, State.readEdges, State.settleEdges, State.settleEdges, params_of_run hu.reached, hu.settle]
  obtain ⟨t, ht, hg, hsettle, hsample⟩ := command_read hui (hoffers.accepts rfl hu.idle) (hk.trans_le hn) hu.granted
    (hoffers.noReset _)
  rw [hedges] at ht
  obtain ⟨hreached, hresponses⟩ := responses_of_command hu.reached ht
  have hnext : d + 4 + (k + 1) * (s.readEdges + 1) = d + 4 + k * (s.readEdges + 1) + (s.readEdges + 1) := by ring
  obtain ⟨j, js, hrest⟩ : ∃ j js, (readN 0 n).drop (k + 1) ++ [.float, .release] = j :: js :=
    List.exists_cons_of_ne_nil (by simp)
  rw [hrest] at hoffers
  refine ⟨t.blk.rspData, t, {
    reached := hnext ▸ hreached
    idle := ht.idle
    granted := hg
    settle := hsettle.trans hu.settle
    offers := ⟨j, js, ht.offers hoffers, hrest.symm⟩
    answers := by rw [hnext, hresponses, hu.answers, captureRecord_append, List.nil_append, captureRecord_sample]
    length := by simp [hu.length]
    samples := fun j hj => ?_ }⟩
  rcases Nat.lt_succ_iff_lt_or_eq.mp hj with hlt | rfl
  · obtain ⟨b, hb, hs⟩ := hu.samples j hlt
    exact ⟨b, by rw [List.getElem?_append_left (hu.length.symm ▸ hlt), hb], hs⟩
  · refine ⟨_, ?_, hsample.of_run hu.reached hu.settle⟩
    rw [List.getElem?_append_right hu.length.le, hu.length, Nat.sub_self]
    rfl

/-- All the `READ`s. -/
theorem exists_captureAt {s : State} {d n k : Nat} (hi : s.Inv) (hp : s.blk.ph = .idle) (ho : s.blk.own = .released)
    (h1 : s.blk.s1 = false) (htarget : s.target.AnswersIn false d (d + 3))
    (hoffers : s.Offers .acquire (readN 0 n ++ [.float, .release])) (hn : n ≤ 2 ^ 20) (hk : k ≤ n) :
    ∃ bs u, s.CaptureAt d n k bs u := by
  induction k with
  | zero => exact ⟨[], captureAt_zero hp ho h1 htarget hoffers⟩
  | succ k ih =>
    obtain ⟨bs, u, hu⟩ := ih (Nat.le_of_succ_le hk)
    obtain ⟨b, t, ht⟩ := captureAt_succ hi hu hk hn
    exact ⟨bs ++ [b], t, ht⟩

/-- The answers to a whole capture, and those one edge before its end: `RELEASE` answers at the last. -/
theorem capture_responses {s : State} {d n : Nat} (hi : s.Inv) (hp : s.blk.ph = .idle) (ho : s.blk.own = .released)
    (h1 : s.blk.s1 = false) (htarget : s.target.AnswersIn false d (d + 3))
    (hoffers : s.Offers .acquire (readN 0 n ++ [.float, .release])) (hn : n ≤ 2 ^ 20) :
    ∃ bs : List Byte, bs.length = n ∧ (∀ j < n, ∃ b, bs[j]? = some b ∧ s.Samples j b) ∧
      responses (d + 4 + n * (s.readEdges + 1) + 1 + (d + 4)) s = captureRecord bs [⟨.ok, 0⟩] ∧
      responses (d + 4 + n * (s.readEdges + 1) + 1 + (d + 5)) s =
        captureRecord bs [⟨.ok, 0⟩, ⟨.ok, 0⟩] := by
  obtain ⟨bs, u, hu⟩ := exists_captureAt hi hp ho h1 htarget hoffers hn le_rfl
  obtain ⟨i, is, huo, hwords⟩ := hu.offers
  rw [List.drop_eq_nil_of_le (length_readN 0 n).le, List.nil_append] at hwords
  obtain ⟨rfl, rfl⟩ := List.cons.inj hwords
  obtain ⟨f, hf, hfg, hfd⟩ := command_float (huo.accepts rfl hu.idle) hu.granted
  have hfo := hf.offers huo
  obtain ⟨r, hr, hrd⟩ := command_release (hfo.accepts rfl hf.idle) hfg (hfo.noReset _)
  obtain ⟨hfrun, hfresponses⟩ := responses_of_command hu.reached hf
  rw [hfd, hu.answers, captureRecord_append, List.nil_append] at hfresponses
  refine ⟨bs, hu.length, hu.samples, ?_, ?_⟩
  · rw [responses_add hfrun, hfresponses, hr.silent, List.append_nil]
  · rw [(responses_of_command hfrun hr).2, hfresponses, hrd, captureRecord_append]
    rfl

/-! ## The artifact of a run -/

theorem captureDone_of_none {rs : List Response} (h : rs[captureLength + 2]? = none) : captureDone rs = false := by
  simp [captureDone, h]

section
variable {bs : List Byte} {is : List Response} (hlen : bs.length = captureLength)

include hlen in
/-- Behind the samples stand the later answers. -/
theorem captureRecord_after_samples (j : Nat) : (captureRecord bs is)[captureLength + j + 1]? = is[j]? := by
  have hmap : (bs.map (Response.mk .ok)).length = captureLength := by rw [List.length_map, hlen]
  rw [captureRecord, List.getElem?_cons_succ, List.getElem?_append_right (hmap ▸ Nat.le_add_right _ _), hmap,
    Nat.add_sub_cancel_left]

/-- The answer to `READ k` is its sample. -/
theorem captureSample_of_record {k : Nat} {b : Byte} (hb : bs[k]? = some b) :
    captureSample (captureRecord bs is) k = some b := by
  have hk : k < (bs.map (Response.mk .ok)).length := by
    rw [List.length_map]
    exact (List.getElem?_eq_some_iff.mp hb).1
  rw [captureSample, captureRecord, List.getElem?_cons_succ, List.getElem?_append_left hk, List.getElem?_map, hb]
  rfl

include hlen in
/-- The capture is done with the answers to `FLOAT` and `RELEASE`. -/
theorem captureDone_of_record : captureDone (captureRecord bs [⟨.ok, 0⟩, ⟨.ok, 0⟩]) = true := by
  have hfloat := captureRecord_after_samples (is := [⟨.ok, 0⟩, ⟨.ok, 0⟩]) hlen 0
  have hrelease := captureRecord_after_samples (is := [⟨.ok, 0⟩, ⟨.ok, 0⟩]) hlen 1
  simp only [captureDone, List.all_cons, List.all_nil, Bool.and_true, Bool.and_eq_true, decide_eq_true_eq]
  exact ⟨rfl, hfloat, hrelease⟩

end

theorem captureArtifact_of_open {s : State} {n : Nat} {rs : List Response} (lost : List Nat) (hs : s.busy = false)
    (hr : responses n s.startCapture = rs) (hd : captureDone rs = false) : s.captureArtifact lost n = none := by
  rw [State.captureArtifact, captureAnswers_of_idle hs, hr]
  exact if_neg (Bool.eq_false_iff.mp hd)

theorem captureArtifact_of_done {s : State} {n : Nat} {rs : List Response} (lost : List Nat) (hs : s.busy = false)
    (hr : responses n s.startCapture = rs) (hd : captureDone rs = true) :
    s.captureArtifact lost n = some (artifact (forwarded lost rs)) := by
  rw [State.captureArtifact, captureAnswers_of_idle hs, hr]
  exact if_pos hd

/-- A host that starts a capture changes nothing but its port. -/
theorem startCapture_eq (s : State) : s.startCapture = { s with
    host := ⟨⟨false, true, encode .acquire⟩, [],
      (readN 0 captureLength ++ [Instr.float, Instr.release]).map encode⟩ } := by
  rw [State.startCapture, capture_eq, captureOf, List.map_cons, State.offer]

/-- The invariant does not speak of the host. -/
theorem State.Inv.withHost {s : State} (hi : s.Inv) (p : HostPort) : State.Inv { s with host := p } := { hi with }

/-- Settles O59: the answers of the run, in order, make the artifact. -/
theorem captureArtifactIsTheSamples : Obligations.CaptureArtifactIsTheSamples := by
  intro s d lost hi hp ho h1 _ hpin hplan hdelay howed
  have hidle : s.busy = false := by simp [State.busy, hp]
  have hlast : s.captureEdges d - 1 = d + 4 + captureLength * (s.readEdges + 1) + 1 + (d + 4) := by
    rw [State.captureEdges, show d + 5 = d + 4 + 1 from rfl, ← Nat.add_assoc, Nat.add_sub_cancel]
  obtain ⟨bs, hlen, hsamples, hbefore, hend⟩ :
      ∃ bs : List Byte, bs.length = captureLength ∧
        (∀ j < captureLength, ∃ b, bs[j]? = some b ∧ s.startCapture.Samples j b) ∧
        responses (s.captureEdges d - 1) s.startCapture = captureRecord bs [⟨.ok, 0⟩] ∧
        responses (s.captureEdges d) s.startCapture = captureRecord bs [⟨.ok, 0⟩, ⟨.ok, 0⟩] := by
    rw [hlast, startCapture_eq]
    exact capture_responses (hi.withHost _) hp ho h1 (Target.answersIn_of_rest hpin hplan hdelay howed) rfl le_rfl
  obtain ⟨rs, hrs, hdone, hsample⟩ : ∃ rs, responses (s.captureEdges d) s.startCapture = rs ∧ captureDone rs = true ∧
      ∀ {k : Nat} {b : Byte}, bs[k]? = some b → captureSample rs k = some b :=
    ⟨_, hend, captureDone_of_record hlen, captureSample_of_record⟩
  have hsampled (k : Nat) (hk : k < captureLength) : ∃ b, captureSample rs k = some b := by
    obtain ⟨b, hb, -⟩ := hsamples k hk
    exact ⟨b, hsample hb⟩
  refine ⟨?_, (artifact (forwarded lost rs)).1, (artifact (forwarded lost rs)).2, ?_, length_artifact _,
    artifactUpTo_failed hsampled, fun k hk => ?_⟩
  · exact captureArtifact_of_open lost hidle hbefore (captureDone_of_none (captureRecord_after_samples hlen 1))
  · rw [captureArtifact_of_done lost hidle hrs hdone]
  · obtain ⟨b, hb, j, u, hu, hup, huc, huo, rfl, hdevice⟩ := hsamples k hk
    refine ⟨j, u, hu, hup, huc, huo, ?_, fun c hc hok => hdevice c ?_ ?_⟩
    · rw [artifact_getElem? _ hk]
      split
      case isTrue hlost => rw [forwarded_of_lost hlost, artifactByte]
      case isFalse hkept => rw [forwarded_of_not_lost hkept, hsample hb, artifactByte]
    · rw [startCapture_eq]; exact hc
    · rw [startCapture_eq]; exact hok

end Sys2Proof.Machine
end
